-- ==== Sys2Proof/Word.lean ====
section
/-! DEFINITION. The words of the block and its plainest bit arithmetic (spec/00_scope.md R5, R6; spec/30_encoding.md R51).
Every value of the block is an unsigned bit vector of a stated width, bit 0 the least significant (R6), so these are
`BitVec`s and their arithmetic wraps. Counts, indices and sums taken "over the natural numbers" are `Nat`. -/

namespace Sys2Proof

/-- One byte of a stream, or an opcode byte (R51, R54). -/
abbrev Byte := BitVec 8

/-- A checksum state, an accumulator, a table entry or a response: `XLEN = 32` bits (R5). -/
abbrev Word := BitVec 32

/-- The data field of a command, `data[63:0]` (R51). -/
abbrev Data := BitVec 64

/-- A command word: `CMD_BITS = 72`, `op` in bits 71:64 and `data` in bits 63:0 (R5, R51). -/
abbrev CmdWord := BitVec 72

/-- `zext_32(b)` of a byte (R6). -/
abbrev zext32 (b : Byte) : Word := b.setWidth 32

end Sys2Proof
end

