-- ==== Sys2Proof/Machine/AsmSyntax.lean ====
section
/-! DEFINITION. The terms of the assembler text (spec/30_encoding.md R61 to R63): a command with its operand, or one of the two
pseudo-commands. Unlike `Instr` these can be ill-formed; WellFormed.lean holds the checks. -/

namespace Sys2Proof.Machine

/-- "`MNEMONIC` or `MNEMONIC operand`": no operand, a hexadecimal number, or a byte string in double quotes (R61). -/
inductive AsmOperand where
  | absent
  | number (n : Nat)
  | text (bytes : List Byte)
  deriving DecidableEq, Repr

/-- One line of assembler text (R61), a pseudo-command `CRC32 state, bytes` (R62) or `ADLER32 state, bytes` (R63). A command is
named by its opcode. -/
inductive AsmStatement where
  | command (op : Byte) (x : AsmOperand)
  | crc32 (state : Nat) (bytes : List Byte)
  | adler32 (state : Nat) (bytes : List Byte)
  deriving DecidableEq, Repr

end Sys2Proof.Machine
end

