-- ==== Sys2Proof/Machine/Operands.lean ====
section
/-! DEFINITION. Operand forms: the fields of a command word (spec/30_encoding.md R51), the state and byte operands cut from
`data` (R53, R54), which bits of `data` are ignored (R55), byte order (spec/20_memory.md R35) and the packing of the Adler
state (spec/10_state.md R25). -/

namespace Sys2Proof.Machine

/-- `op = cmd[71:64]` (R51). -/
def opField (w : CmdWord) : Byte := w.extractLsb' 64 8

/-- `data = cmd[63:0]` (R51). -/
def dataField (w : CmdWord) : Data := w.extractLsb' 0 64

/-- `op.unit`, the high nibble of the opcode: 0 system, 1 CRC engine, 2 ADL engine (R51). -/
def opUnit (op : Byte) : BitVec 4 := op.extractLsb' 4 4

/-- `op.fn`, the low nibble of the opcode (R51); for a data command its byte count `n` (R54). -/
def opFn (op : Byte) : BitVec 4 := op.extractLsb' 0 4

/-- A command word put together from its two fields: `op << 64` with `data` below it (R51, R56). -/
def cmdWord (op : Byte) (data : Data) : CmdWord := (op.setWidth 72 <<< 64) ||| data.setWidth 72

/-- `byte(d, i) = d[8*i+7:8*i]` (spec/00_scope.md R7; R54). -/
def byteAt (d : Data) (i : Nat) : Byte := d.extractLsb' (8 * i) 8

/-- The first `n` bytes of a beat in stream order, position 0 first (R54; spec/20_memory.md R35). -/
def beatBytes (n : Nat) (d : Data) : List Byte := (List.range n).map (byteAt d)

/-- The data field of a beat, byte `i` of the list at `data[8*i+7:8*i]` and every higher bit zero (R35, R55, R61). Of a list
longer than eight only the first eight bytes fit. -/
def packBytes : List Byte → Data
  | [] => 0
  | b :: bs => (packBytes bs <<< 8) ||| b.setWidth 64

/-- `state = data[31:0]` of a `BEGIN` (R53). -/
def stateOperand (d : Data) : Word := d.extractLsb' 0 32

/-- The data field of a `BEGIN` as an assembler writes it: the ignored `data[63:32]` zero (R53, R55). -/
def stateData (v : Word) : Data := v.setWidth 64

/-- The bits of `data` that a command of opcode `op` uses, as a mask: none for `SYS` and `END`, `data[31:0]` for `BEGIN`,
`data[8*n-1:0]` for `Dn` (R53, R54, R55). A reserved opcode uses none. -/
def usedMask (op : Byte) : Data :=
  if opUnit op = 1 ∨ opUnit op = 2 then
    if opFn op = 0 then 0xFFFFFFFF
    else if (opFn op).toNat ≤ 8 then (BitVec.allOnes 64) >>> (64 - 8 * (opFn op).toNat)
    else 0
  else 0

/-- `x[8*n+7:8*n]` of a 32-bit value: an 8-bit table index, masked by its type (spec/20_memory.md R31, R32;
spec/40_crc32.md R89). -/
def slice8 (x : Word) (n : Nat) : Byte := x.extractLsb' (8 * n) 8

/-- `zext_32(state[15:0])`, the Adler half `s1` (spec/10_state.md R25; spec/41_adler32.md R100). -/
def lowHalf (v : Word) : Word := (v.extractLsb' 0 16).setWidth 32

/-- `zext_32(state[31:16])`, the Adler half `s2` (R25, R100). -/
def highHalf (v : Word) : Word := (v.extractLsb' 16 16).setWidth 32

/-- `(s2 << 16) | s1` (R25, R110). -/
def packHalves (s2 s1 : Word) : Word := (s2 <<< 16) ||| s1

end Sys2Proof.Machine
end

