-- ==== Sys2Proof/Syntax.lean ====
section
/-! DEFINITION. The 22 commands (spec/30_encoding.md R56, spec/opcode_table.json), one constructor a row. An operand has the
width the spec gives it: `state` is 32 bits (R53), a data command carries exactly its bytes in stream order (R54), and
the ignored bits of `data` (R55) are no operand. So a term of `Instr` cannot be ill-formed; what can be ill-formed is a command
word or a line of assembler text (WellFormed.lean). -/

namespace Sys2Proof

/-- A decoded command of the CKSUM unit (R56). -/
inductive Instr where
  | sysNop
  | sysRdstat
  | crcBegin (state : Word)
  | crcD1 (b0 : Byte)
  | crcD2 (b0 b1 : Byte)
  | crcD3 (b0 b1 b2 : Byte)
  | crcD4 (b0 b1 b2 b3 : Byte)
  | crcD5 (b0 b1 b2 b3 b4 : Byte)
  | crcD6 (b0 b1 b2 b3 b4 b5 : Byte)
  | crcD7 (b0 b1 b2 b3 b4 b5 b6 : Byte)
  | crcD8 (b0 b1 b2 b3 b4 b5 b6 b7 : Byte)
  | crcEnd
  | adlBegin (state : Word)
  | adlD1 (b0 : Byte)
  | adlD2 (b0 b1 : Byte)
  | adlD3 (b0 b1 b2 : Byte)
  | adlD4 (b0 b1 b2 b3 : Byte)
  | adlD5 (b0 b1 b2 b3 b4 : Byte)
  | adlD6 (b0 b1 b2 b3 b4 b5 : Byte)
  | adlD7 (b0 b1 b2 b3 b4 b5 b6 : Byte)
  | adlD8 (b0 b1 b2 b3 b4 b5 b6 b7 : Byte)
  | adlEnd
  deriving DecidableEq, Repr

end Sys2Proof
end

