-- ==== Sys2Proof/WellFormed.lean ====
section
/-! DEFINITION. Well-formedness. A term of `Instr` needs no check: each operand's type is its field (R53, R54), so every term
is well-formed. Checked here: a command word (is its opcode reserved; are its ignored bits zero, as an assembler
writes them: spec/30_encoding.md R55, R57), a line of assembler text (R61 to R63; what R61 leaves open is log entry 16), and a
chunk bound of the configuration (spec/93_implementation_defined.md U8). -/

namespace Sys2Proof

open Machine

/-- The reserved opcodes, `0x02..0x0F`, `0x1A..0x1F`, `0x2A..0x2F` and `0x30..0xFF` (R57). -/
def reservedOpcode (op : Byte) : Bool :=
  (0x02 ≤ op && op ≤ 0x0F) || (0x1A ≤ op && op ≤ 0x1F) || (0x2A ≤ op && op ≤ 0x2F) || 0x30 ≤ op

/-- A command word as an assembler writes it: its opcode is one of the 22 (R57) and every ignored bit is zero (R55). -/
def canonicalWord (w : CmdWord) : Bool :=
  !reservedOpcode (opField w) && (dataField w &&& ~~~usedMask (opField w)) == 0

/-- A command has an operand when it uses bits of `data` (R53, R54, R55). -/
def takesOperand (op : Byte) : Bool := usedMask op != 0

/-- A byte string is "accepted by data commands" (R61): the opcodes whose function is `D1` to `D8`. -/
def isDataCommand (op : Byte) : Bool := takesOperand op && opFn op != 0

/-- The operand of an assembler line fits its command: absent where the command takes none; a number "at most 64 bits" with no
bit outside those the command uses; a byte string only for a data command and of exactly its byte count (R61; log entry 16). -/
def asmOperandWf (op : Byte) : AsmOperand → Bool
  | .absent => !takesOperand op
  | .number n => takesOperand op && decide (n ≤ (usedMask op).toNat)
  | .text bytes => isDataCommand op && bytes.length == (opFn op).toNat

/-- A line of assembler text is well-formed: a command of the table with a fitting operand, or a pseudo-command whose state is
a 32-bit value (R61, R62, R63). -/
def asmStatementWf : AsmStatement → Bool
  | .command op x => !reservedOpcode op && asmOperandWf op x
  | .crc32 state _ => decide (state < 2 ^ 32)
  | .adler32 state _ => decide (state < 2 ^ 32)

/-- A chunk bound the spec allows: "A value above 5552 is outside the spec" and a model refuses it
(spec/93_implementation_defined.md U8; spec/41_adler32.md R116). -/
def chunkBoundWf (chunkMax : Nat) : Bool := decide (1 ≤ chunkMax ∧ chunkMax ≤ 5552)

end Sys2Proof
end

