-- ==== Sys2Proof/Decode.lean ====
section
/-! DEFINITION. The decoder (spec/30_encoding.md R56, R60), total on every 72-bit word: it looks the opcode byte up in the
table of R56 and assembles the operands by R53 and R54; a reserved opcode (R57) is rejected by name. After it the encoder, from
the same table. -/

namespace Sys2Proof

open Machine

/-- What a command word decodes to (R60): a command of the table, or a reserved encoding with its opcode (R57). -/
inductive Decoded where
  | command (i : Instr)
  | reserved (op : Byte)
  deriving DecidableEq, Repr

/-- The opcode map of R56, a row a command: its opcode and how its operands are cut from `data`. -/
def opcodeTable : List (Byte × (Data → Instr)) :=
  [(0x00, fun _ => .sysNop),
   (0x01, fun _ => .sysRdstat),
   (0x10, fun d => .crcBegin (stateOperand d)),
   (0x11, fun d => .crcD1 (byteAt d 0)),
   (0x12, fun d => .crcD2 (byteAt d 0) (byteAt d 1)),
   (0x13, fun d => .crcD3 (byteAt d 0) (byteAt d 1) (byteAt d 2)),
   (0x14, fun d => .crcD4 (byteAt d 0) (byteAt d 1) (byteAt d 2) (byteAt d 3)),
   (0x15, fun d => .crcD5 (byteAt d 0) (byteAt d 1) (byteAt d 2) (byteAt d 3) (byteAt d 4)),
   (0x16, fun d => .crcD6 (byteAt d 0) (byteAt d 1) (byteAt d 2) (byteAt d 3) (byteAt d 4) (byteAt d 5)),
   (0x17, fun d => .crcD7 (byteAt d 0) (byteAt d 1) (byteAt d 2) (byteAt d 3) (byteAt d 4) (byteAt d 5) (byteAt d 6)),
   (0x18, fun d => .crcD8 (byteAt d 0) (byteAt d 1) (byteAt d 2) (byteAt d 3) (byteAt d 4) (byteAt d 5) (byteAt d 6) (byteAt d 7)),
   (0x19, fun _ => .crcEnd),
   (0x20, fun d => .adlBegin (stateOperand d)),
   (0x21, fun d => .adlD1 (byteAt d 0)),
   (0x22, fun d => .adlD2 (byteAt d 0) (byteAt d 1)),
   (0x23, fun d => .adlD3 (byteAt d 0) (byteAt d 1) (byteAt d 2)),
   (0x24, fun d => .adlD4 (byteAt d 0) (byteAt d 1) (byteAt d 2) (byteAt d 3)),
   (0x25, fun d => .adlD5 (byteAt d 0) (byteAt d 1) (byteAt d 2) (byteAt d 3) (byteAt d 4)),
   (0x26, fun d => .adlD6 (byteAt d 0) (byteAt d 1) (byteAt d 2) (byteAt d 3) (byteAt d 4) (byteAt d 5)),
   (0x27, fun d => .adlD7 (byteAt d 0) (byteAt d 1) (byteAt d 2) (byteAt d 3) (byteAt d 4) (byteAt d 5) (byteAt d 6)),
   (0x28, fun d => .adlD8 (byteAt d 0) (byteAt d 1) (byteAt d 2) (byteAt d 3) (byteAt d 4) (byteAt d 5) (byteAt d 6) (byteAt d 7)),
   (0x29, fun _ => .adlEnd)]

/-- The table's row of an opcode byte, if it has one; the whole byte is matched (R60). -/
def lookupOpcode (op : Byte) : Option (Data → Instr) := opcodeTable.lookup op

/-- Decoding reads `op` only to choose the command, and no state (R60). -/
def decode (w : CmdWord) : Decoded :=
  match lookupOpcode (opField w) with
  | some operands => .command (operands (dataField w))
  | none => .reserved (opField w)

/-- The opcode of a command (R56). -/
def opcodeOf : Instr → Byte
  | .sysNop => 0x00
  | .sysRdstat => 0x01
  | .crcBegin _ => 0x10
  | .crcD1 _ => 0x11
  | .crcD2 _ _ => 0x12
  | .crcD3 _ _ _ => 0x13
  | .crcD4 _ _ _ _ => 0x14
  | .crcD5 _ _ _ _ _ => 0x15
  | .crcD6 _ _ _ _ _ _ => 0x16
  | .crcD7 _ _ _ _ _ _ _ => 0x17
  | .crcD8 _ _ _ _ _ _ _ _ => 0x18
  | .crcEnd => 0x19
  | .adlBegin _ => 0x20
  | .adlD1 _ => 0x21
  | .adlD2 _ _ => 0x22
  | .adlD3 _ _ _ => 0x23
  | .adlD4 _ _ _ _ => 0x24
  | .adlD5 _ _ _ _ _ => 0x25
  | .adlD6 _ _ _ _ _ _ => 0x26
  | .adlD7 _ _ _ _ _ _ _ => 0x27
  | .adlD8 _ _ _ _ _ _ _ _ => 0x28
  | .adlEnd => 0x29

/-- The data field of a command, its ignored bits zero (R53, R54, R55). -/
def dataOf : Instr → Data
  | .sysNop => 0
  | .sysRdstat => 0
  | .crcBegin v => stateData v
  | .crcD1 b0 => packBytes [b0]
  | .crcD2 b0 b1 => packBytes [b0, b1]
  | .crcD3 b0 b1 b2 => packBytes [b0, b1, b2]
  | .crcD4 b0 b1 b2 b3 => packBytes [b0, b1, b2, b3]
  | .crcD5 b0 b1 b2 b3 b4 => packBytes [b0, b1, b2, b3, b4]
  | .crcD6 b0 b1 b2 b3 b4 b5 => packBytes [b0, b1, b2, b3, b4, b5]
  | .crcD7 b0 b1 b2 b3 b4 b5 b6 => packBytes [b0, b1, b2, b3, b4, b5, b6]
  | .crcD8 b0 b1 b2 b3 b4 b5 b6 b7 => packBytes [b0, b1, b2, b3, b4, b5, b6, b7]
  | .crcEnd => 0
  | .adlBegin v => stateData v
  | .adlD1 b0 => packBytes [b0]
  | .adlD2 b0 b1 => packBytes [b0, b1]
  | .adlD3 b0 b1 b2 => packBytes [b0, b1, b2]
  | .adlD4 b0 b1 b2 b3 => packBytes [b0, b1, b2, b3]
  | .adlD5 b0 b1 b2 b3 b4 => packBytes [b0, b1, b2, b3, b4]
  | .adlD6 b0 b1 b2 b3 b4 b5 => packBytes [b0, b1, b2, b3, b4, b5]
  | .adlD7 b0 b1 b2 b3 b4 b5 b6 => packBytes [b0, b1, b2, b3, b4, b5, b6]
  | .adlD8 b0 b1 b2 b3 b4 b5 b6 b7 => packBytes [b0, b1, b2, b3, b4, b5, b6, b7]
  | .adlEnd => 0

/-- The command word of a command (R51, R56), its ignored bits zero. -/
def encode (i : Instr) : CmdWord := cmdWord (opcodeOf i) (dataOf i)

/-- The command word whose bits are `w`, numbered as spec/opcode_table.json numbers them: one 72-bit word, bit 0 the least
significant; bits at `nbits` and above are zero (log entry 18). -/
def tableWord (nbits w : Nat) : CmdWord := BitVec.ofNat 72 (w % 2 ^ nbits)

/-- The command the decoder reads from a row's word, `none` where it refuses. -/
def decodeTableWord (nbits w : Nat) : Option Instr :=
  match decode (tableWord nbits w) with
  | .command i => some i
  | .reserved _ => none

end Sys2Proof
end

