-- ==== Sys2Proof/Config.lean ====
section
/-! DEFINITION. What is fixed for this hardware and is no state (spec/00_scope.md R5, spec/10_state.md R21): the constants of
the two datapaths, the capability set and the kernel lists of the implementation selection, the depth of the response queue. -/

namespace Sys2Proof

/-- A capability name of the probe `has_feature(name)` (spec/42_system.md R131); the source lists none. -/
abbrev Capability := String

/-- An entry of a kernel list: "a kernel id, the set of capabilities it requires, and a function" (R131).
The contract of the function is stated in Machine/Selection.lean (R92, R119). -/
structure Kernel where
  id       : Nat
  requires : List Capability
  run      : Word → List Byte → Word

namespace Config

/-- `ADLER_MOD`, the modulus of both Adler sums (R5). -/
def adlerMod : Nat := 65521

/-- `ADLER_CHUNK_MAX`, most bytes folded between two reductions (R5, D17). -/
def adlerChunkMax : Nat := 5552

/-- `CRC_POLY_REFLECTED` (R5, R33; the spec's own from general knowledge, D18; log entry 9). -/
def crcPolyReflected : Word := 0xEDB88320

/-- `CAP`, the capability set: OPEN, constant after reset (R5, R131). A free constant: nothing in Lean can say what it holds
(log entry 10). -/
opaque cap : List Capability

/-- `KERNELS_CRC`: empty for this hardware (R131, D20; log entry 11). -/
def kernelsCrc : List Kernel := []

/-- `KERNELS_ADL`: empty for this hardware (R131, D20; log entry 11). -/
def kernelsAdl : List Kernel := []

/-- `RSP_DEPTH`: OPEN in the spec, and "the model's queue is unbounded" (R5, R19, D8). `none` is unbounded; the rule for a
finite depth is written in Machine/Port.lean (log entry 6). -/
def rspDepth : Option Nat := none

end Config
end Sys2Proof
end

