-- ==== Sys2Proof/Machine/State.lean ====
section
/-! DEFINITION. The state of the block (spec/10_state.md R10: "the following, and nothing else"), its reset value (R24), and the
reasons a step can stop. Two fields more are the model's own: the host's coming actions, which the step reads (log entry 3), and
the response words the host has taken (log entry 4). The table memory is constant and no state (R21; log entry 12). -/

namespace Sys2Proof.Machine

/-- What a selection latch names: the reference algorithm or an entry of a kernel list by its id (spec/42_system.md R132). -/
inductive KernelId where
  | reference
  | kernel (id : Nat)
  deriving DecidableEq, Repr

/-- A selection latch, write-once: "unresolved (initial) and resolved (terminal ...)" (R20, R132). -/
inductive Selection where
  | unresolved
  | resolved (k : KernelId)
  deriving DecidableEq, Repr

/-- One action of the host at the block's pins (spec/30_encoding.md R50; log entry 3): it offers a command word, it is ready to
take a response word, or it asserts the hardware reset (spec/70_reset_and_hazards.md R160). -/
inductive PortEvent where
  | command (w : CmdWord)
  | take
  | reset
  deriving DecidableEq, Repr

/-- The two errors of the command interface (spec/60_exceptions.md R141, R142). -/
inductive ErrorCause where
  | illegalCommand
  | sequenceError
  deriving DecidableEq, Repr

/-- The two accumulators of the ADL engine and the byte counter, as the byte step `adl_fold` sees them
(spec/41_adler32.md R101). State stores the three one by one; this is a view of them. -/
structure AdlRegs where
  s1  : Word
  s2  : Word
  cnt : BitVec 13
  deriving DecidableEq, Repr

/-- The state of the block, R10, field by field, and the model's own `input` and `taken`. -/
structure State where
  /-- `crc_r`: working CRC register, internal (complemented) convention (R11). -/
  crcR       : Word
  /-- `crc_open`: 1 between `CRC.BEGIN` and `CRC.END` (R15). -/
  crcOpen    : Bool
  /-- `adl_s1`: accumulator of the byte sum (R12). -/
  adlS1      : Word
  /-- `adl_s2`: accumulator of the sum of `adl_s1` values (R12). -/
  adlS2      : Word
  /-- `adl_cnt`: bytes folded since the last reduction (R13). -/
  adlCnt     : BitVec 13
  /-- `adl_open`: 1 between `ADL.BEGIN` and `ADL.END` (R15). -/
  adlOpen    : Bool
  /-- `err_ill`: sticky, an illegal command was seen (R15). -/
  errIll     : Bool
  /-- `err_seq`: sticky, a sequence error was seen (R15). -/
  errSeq     : Bool
  /-- `first_err_op`: opcode byte of the first command that raised an error (R10). -/
  firstErrOp : Byte
  /-- `crc_sel`: implementation selection of the CRC engine (R20). -/
  crcSel     : Selection
  /-- `adl_sel`: implementation selection of the ADL engine (R20). -/
  adlSel     : Selection
  /-- `rsp`: responses not yet taken by the host, oldest first (R19). -/
  rsp        : List Word
  /-- The model's own: what the host does next, first action first (log entry 3). -/
  input      : List PortEvent
  /-- The model's own: the response words the host has taken, oldest first (log entry 4). -/
  taken      : List Word
  deriving DecidableEq, Repr

/-- Right after reset (R24, R161). `crc_r`, `adl_s1`, `adl_s2` and `adl_cnt` are "unspecified; unobservable": the model names
zero for them, DESIGN CHOICE (log entries 1 and 2). The model's own lists are empty (log entries 3 and 4). -/
def State.reset : State where
  crcR       := 0
  crcOpen    := false
  adlS1      := 0
  adlS2      := 0
  adlCnt     := 0
  adlOpen    := false
  errIll     := false
  errSeq     := false
  firstErrOp := 0
  crcSel     := .unresolved
  adlSel     := .unresolved
  rsp        := []
  input      := []
  taken      := []

/-- Why the machine can stop. No command stops it: an error is recorded and the block goes on (R145, R146). -/
inductive Fault where
  /-- The response queue is full, a command is held at the command port, and the host has no further action in store that could
  lift the hold (R166; spec/93_implementation_defined.md U18 `stuck`). Raised by `stepAt` under a finite depth only. Safe:
  nothing is claimed of such a run (log entry 6). -/
  | commandPortHeld
  deriving DecidableEq, Repr

/-- Why an instruction can be without a meaning. No instruction of this model is. -/
inductive Refusal where
  /-- The instruction has no meaning yet; raised by no arm of `exec` (safe). -/
  | notModelled (mnemonic : String)
  deriving DecidableEq, Repr

/-- The outcome of one command or one step. -/
abbrev Result := Host.Outcome State Fault Refusal

end Sys2Proof.Machine
end

