-- ==== Sys2Proof/Machine/Flags.lean ====
section
/-! DEFINITION. The six one-bit flags (spec/10_state.md R15) and the `STATUS` word computed from them (R17). The block has no
arithmetic condition codes. -/

namespace Sys2Proof.Machine

/-- The resolved flag of a selection latch (R15, R20). -/
def Selection.isResolved : Selection → Bool
  | .unresolved => false
  | .resolved _ => true

/-- One flag at bit `n` of a word whose other bits are zero (R17). -/
def flagBit (b : Bool) (n : Nat) : Word := (BitVec.ofBool b).setWidth 32 <<< n

/-- `STATUS = zext_32(first_err_op) << 8 | err_seq << 5 | err_ill << 4 | adl_resolved << 3 | crc_resolved << 2 | adl_open << 1 |
crc_open` (R17). Bits 7:6 and 31:16 are reserved and read as zero. -/
def status (s : State) : Word :=
  (zext32 s.firstErrOp <<< 8) ||| flagBit s.errSeq 5 ||| flagBit s.errIll 4 ||| flagBit s.adlSel.isResolved 3
    ||| flagBit s.crcSel.isResolved 2 ||| flagBit s.adlOpen 1 ||| flagBit s.crcOpen 0

/-- An error flag is set (R145). -/
def State.anyError (s : State) : Bool := s.errIll || s.errSeq

end Sys2Proof.Machine
end

