-- ==== Sys2Proof/Machine/Selection.lean ====
section
/-! DEFINITION. Capability probe, kernel lists and the write-once implementation selection (spec/42_system.md R131 to R133;
spec/10_state.md R20). The selection has no effect on any value; only whether a latch is resolved can be seen. -/

namespace Sys2Proof.Machine

/-- `has_feature(name) = (name in CAP)`: "side-effect-free, idempotent" (R131). -/
def hasFeature (cap : List Capability) (name : Capability) : Bool := cap.contains name

/-- A kernel's required set is a subset of `CAP` (R132). -/
def kernelQualifies (cap : List Capability) (k : Kernel) : Bool := k.requires.all (hasFeature cap)

/-- The first entry of a list whose requirements are satisfied (R132). -/
def firstQualifying (kernels : List Kernel) (cap : List Capability) : Option Kernel := kernels.find? (kernelQualifies cap)

/-- `select(list, CAP)`: the id of that entry, `REFERENCE` if there is none (R132). -/
def select (kernels : List Kernel) (cap : List Capability) : KernelId :=
  match firstQualifying kernels cap with
  | some k => .kernel k.id
  | none => .reference

/-- "if sel is unresolved then sel <- resolved(select(list, CAP))": once set it never changes (R132; R71, R100). -/
def resolveSelection (kernels : List Kernel) (cap : List Capability) : Selection → Selection
  | .unresolved => .resolved (select kernels cap)
  | .resolved k => .resolved k

/-- The function an engine runs when its latch was resolved over this list: the selected kernel's, or the reference (R92, R119,
R131). The block's own datapath is the reference; this is for stating that the choice changes no value (R133). -/
def selectedFunction (kernels : List Kernel) (cap : List Capability) (reference : Word → List Byte → Word) :
    Word → List Byte → Word :=
  match firstQualifying kernels cap with
  | some k => k.run
  | none => reference

/-- The contract of a kernel: `K(state, bytes)` equals the checksum function for all inputs (spec/40_crc32.md R92;
spec/41_adler32.md R119, over all 32-bit states: spec/90_conflicts.md C3). -/
def kernelMeetsContract (f : Word → List Byte → Word) (k : Kernel) : Prop :=
  ∀ (state : Word) (bytes : List Byte), k.run state bytes = f state bytes

end Sys2Proof.Machine
end

