-- ==== Sys2Proof/Machine/Ops.lean ====
section
/-! DEFINITION. The named operations on State that every command is written with: register writes, the response queue
(spec/10_state.md R19), raising an error (spec/60_exceptions.md R145), the sequence check (R142), hardware reset
(spec/70_reset_and_hazards.md R160, R161), and taking a response. -/

namespace Sys2Proof.Machine

/-- `crc_r <- v` (R11). -/
def State.setCrcR (v : Word) (s : State) : State := { s with crcR := v }

/-- `crc_open <- b` (R15). -/
def State.setCrcOpen (b : Bool) (s : State) : State := { s with crcOpen := b }

/-- `crc_sel <- x` (R20). -/
def State.setCrcSel (x : Selection) (s : State) : State := { s with crcSel := x }

/-- `adl_s1`, `adl_s2` and `adl_cnt` together (R12, R13). -/
def State.adlRegs (s : State) : AdlRegs := ⟨s.adlS1, s.adlS2, s.adlCnt⟩

/-- `adl_s1 <- r.s1`, `adl_s2 <- r.s2`, `adl_cnt <- r.cnt` (R12, R13). -/
def State.setAdlRegs (r : AdlRegs) (s : State) : State := { s with adlS1 := r.s1, adlS2 := r.s2, adlCnt := r.cnt }

/-- `adl_open <- b` (R15). -/
def State.setAdlOpen (b : Bool) (s : State) : State := { s with adlOpen := b }

/-- `adl_sel <- x` (R20). -/
def State.setAdlSel (x : Selection) (s : State) : State := { s with adlSel := x }

/-- `respond(v)` appends one word to the response queue (R19; spec/00_scope.md R7). -/
def State.respond (v : Word) (s : State) : State := { s with rsp := s.rsp ++ [v] }

/-- The host's actions still to come (the model's own field; log entry 3). -/
def State.setInput (es : List PortEvent) (s : State) : State := { s with input := es }

/-- The cause code of an error; "no register holds a numeric cause code" (R141, R142). -/
def ErrorCause.code : ErrorCause → Nat
  | .illegalCommand => 1
  | .sequenceError => 2

/-- `raise E(op)`, what raising an error does, completely (R145): `first_err_op` is written only while neither error flag is
set, then the flag of the cause is set. Nothing is saved and nothing is vectored, so there is no return either (R146, R148):
the next command is taken normally. -/
def State.raiseError (cause : ErrorCause) (op : Byte) (s : State) : State :=
  { s with
    firstErrOp := if s.anyError then s.firstErrOp else op
    errIll := s.errIll || cause == .illegalCommand
    errSeq := s.errSeq || cause == .sequenceError }

/-- The sequence check of an engine's command (R142): where it is acceptable its effect happens, where not it raises
`SequenceError(op)` and has no other effect (R145, R147). -/
def sequenced (acceptable : Bool) (op : Byte) (effect : State → State) (s : State) : Result :=
  .next (if acceptable then effect s else s.raiseError .sequenceError op)

/-- The hardware reset (R160, R161): every piece of the block's state takes the value of R24, words not yet taken are lost. The
host's own lists are no state of the block and stay (log entry 19). -/
def State.hardwareReset (s : State) : State := { State.reset with input := s.input, taken := s.taken }

/-- The host is ready to take a response word: the front one is transferred (R19, R39); with none there is no transfer
(R50; log entry 7). -/
def State.takeResponse (s : State) : State :=
  match s.rsp with
  | [] => s
  | v :: rest => { s with rsp := rest, taken := s.taken ++ [v] }

/-- Apply `f` to the leading groups of `n` bytes while at least `n` bytes are left, and hand on the remainder: "each consuming
as many bytes as it can and handing the remainder to the next tier" (spec/40_crc32.md R87; spec/41_adler32.md R115). The first
argument bounds the number of groups; the number of bytes is always enough. -/
def foldGroups {σ : Type} (n : Nat) (f : σ → List Byte → σ) : Nat → σ → List Byte → σ × List Byte
  | 0, c, bytes => (c, bytes)
  | fuel + 1, c, bytes =>
    if n ≤ bytes.length then foldGroups n f fuel (f c (bytes.take n)) (bytes.drop n) else (c, bytes)

end Sys2Proof.Machine
end

