-- ==== Sys2Proof/Machine/Adl.lean ====
section
/-! DEFINITION. The ADL engine: the byte step, the reduction and the meanings of `ADL.BEGIN`, `ADL.D1` to `ADL.D8`, `ADL.END`
(spec/41_adler32.md R100 to R110). Additions are on 32-bit values and, in every state a run reaches, never wrap
(spec/10_state.md R14). The byte step takes the chunk bound as an argument, so that the bound can be shown not to matter
(R116); the block uses `ADLER_CHUNK_MAX`. -/

namespace Sys2Proof.Machine

/-- `v mod ADLER_MOD` (R101). -/
def adlMod (v : Word) : Word := v % BitVec.ofNat 32 Config.adlerMod

/-- The end-of-chunk reduction: both sums modulo `ADLER_MOD`, the counter back to 0 (R101, R110). -/
def adlReduce (r : AdlRegs) : AdlRegs := ⟨adlMod r.s1, adlMod r.s2, 0⟩

/-- `adl_byte((s1, s2), b) = (s1 + zext_32(b), s2 + s1 + zext_32(b))`, "the canonical s1 += byte; s2 += s1"
(spec/00_scope.md R8; R114). -/
def adlByte (p : Word × Word) (b : Byte) : Word × Word := (p.1 + zext32 b, p.2 + (p.1 + zext32 b))

/-- `adl_fold(b)` for a chunk bound (R101): add the byte, add the new `adl_s1` to `adl_s2`, count; the byte that makes the
counter reach the bound ends the chunk and reduces. -/
def adlFoldWith (chunkMax : Nat) (r : AdlRegs) (b : Byte) : AdlRegs :=
  let p := adlByte (r.s1, r.s2) b
  let r' : AdlRegs := ⟨p.1, p.2, r.cnt + 1⟩
  if r'.cnt.toNat = chunkMax then adlReduce r' else r'

/-- `adl_fold(b)` (R101). -/
def adlFold (r : AdlRegs) (b : Byte) : AdlRegs := adlFoldWith Config.adlerChunkMax r b

/-- The bytes of a beat folded in order (R102 to R109). -/
def adlFoldBytes (r : AdlRegs) (bytes : List Byte) : AdlRegs := bytes.foldl adlFold r

/-- What `ADL.BEGIN` loads: both halves unpacked without reduction, the counter 0 (R100). -/
def adlLoad (state : Word) : AdlRegs := ⟨lowHalf state, highHalf state, 0⟩

/-- What `ADL.END` does to the sums: the final partial chunk is reduced, and only if there is one (R110). -/
def adlFinish (r : AdlRegs) : AdlRegs := if r.cnt ≠ 0 then adlReduce r else r

/-- The response of `ADL.END`: `(adl_s2 << 16) | adl_s1` after that reduction (R110). -/
def adlResponse (r : AdlRegs) : Word := packHalves (adlFinish r).s2 (adlFinish r).s1

/-- A data command of the ADL engine: on an open engine its bytes are folded in order; on a closed one it raises
`SequenceError(op)` (R102 to R109). -/
def adlBeat (op : Byte) (bytes : List Byte) (s : State) : Result :=
  sequenced s.adlOpen op (fun s => s.setAdlRegs (adlFoldBytes s.adlRegs bytes)) s

/-- `ADL.BEGIN state` (R100). -/
def execAdlBegin (state : Word) (s : State) : Result :=
  sequenced (!s.adlOpen) 0x20
    (fun s => ((s.setAdlSel (resolveSelection Config.kernelsAdl Config.cap s.adlSel)).setAdlRegs (adlLoad state)).setAdlOpen true) s

/-- `ADL.D1` (R102). -/
def execAdlD1 (b0 : Byte) (s : State) : Result := adlBeat 0x21 [b0] s

/-- `ADL.D2` (R103). -/
def execAdlD2 (b0 b1 : Byte) (s : State) : Result := adlBeat 0x22 [b0, b1] s

/-- `ADL.D3` (R104). -/
def execAdlD3 (b0 b1 b2 : Byte) (s : State) : Result := adlBeat 0x23 [b0, b1, b2] s

/-- `ADL.D4` (R105). -/
def execAdlD4 (b0 b1 b2 b3 : Byte) (s : State) : Result := adlBeat 0x24 [b0, b1, b2, b3] s

/-- `ADL.D5` (R106). -/
def execAdlD5 (b0 b1 b2 b3 b4 : Byte) (s : State) : Result := adlBeat 0x25 [b0, b1, b2, b3, b4] s

/-- `ADL.D6` (R107). -/
def execAdlD6 (b0 b1 b2 b3 b4 b5 : Byte) (s : State) : Result := adlBeat 0x26 [b0, b1, b2, b3, b4, b5] s

/-- `ADL.D7` (R108). -/
def execAdlD7 (b0 b1 b2 b3 b4 b5 b6 : Byte) (s : State) : Result := adlBeat 0x27 [b0, b1, b2, b3, b4, b5, b6] s

/-- `ADL.D8` (R109). -/
def execAdlD8 (b0 b1 b2 b3 b4 b5 b6 b7 : Byte) (s : State) : Result :=
  adlBeat 0x28 [b0, b1, b2, b3, b4, b5, b6, b7] s

/-- `ADL.END` (R110): the three registers keep their values after it (D21; log entry 13). -/
def execAdlEnd (s : State) : Result :=
  sequenced s.adlOpen 0x29
    (fun s => ((s.setAdlRegs (adlFinish s.adlRegs)).respond (adlResponse s.adlRegs)).setAdlOpen false) s

end Sys2Proof.Machine
end

