-- ==== Sys2Proof/Machine/Tables.lean ====
section
/-! DEFINITION. The table memory of the CRC engine (spec/20_memory.md R30 to R34, R40): read-only, its contents a computation
(R33). It is no state and no store reaches it; an index is 8 bits wide, so no address outside it is formed (R32). -/

namespace Sys2Proof.Machine

/-- `step1(c)`: one bit of the reflected CRC (R33; spec/40_crc32.md R82; log entry 9). -/
def step1 (c : Word) : Word := (c >>> 1) ^^^ (if c.getLsbD 0 then Config.crcPolyReflected else 0)

/-- `step1` applied `n` times (R33, R82). -/
def step1Times : Nat → Word → Word
  | 0, c => c
  | n + 1, c => step1Times n (step1 c)

/-- `T_0[b]`: `step1` applied 8 times to `zext_32(b)` (R33). -/
def tableT0 (b : Byte) : Word := step1Times 8 (zext32 b)

/-- `(x >> 8) ^ T_0[x[7:0]]`: one further zero byte shifted through (R33). -/
def shiftZeroByte (x : Word) : Word := (x >>> 8) ^^^ tableT0 (slice8 x 0)

/-- `T_j[b]`, the register contribution of byte `b` after `j` further zero bytes (R33). -/
def tableT : Nat → Byte → Word
  | 0, b => tableT0 b
  | j + 1, b => shiftZeroByte (tableT j b)

/-- `TAB1[i]`, an entry of the byte-at-a-time table (R31, R33). -/
def tab1 (i : Byte) : Word := tableT 0 i

/-- The word address `k*256 + i` of an entry of `TAB8`, always in `0..2047` (R32, R40). -/
def tab8Addr (k : Fin 8) (i : Byte) : Fin 2048 := ⟨k.val * 256 + i.toNat, by have := i.isLt; omega⟩

/-- The word of the slice-by-8 table memory at a word address: sub-table `k` holds `T_{7-k}` (R30, R33, D19). -/
def tab8Word (a : Fin 2048) : Word := tableT (7 - a.val / 256) (BitVec.ofNat 8 (a.val % 256))

/-- `TAB8[k][i]` (R32). -/
def tab8 (k : Fin 8) (i : Byte) : Word := tab8Word (tab8Addr k i)

end Sys2Proof.Machine
end

