-- ==== Sys2Proof/Machine/Crc.lean ====
section
/-! DEFINITION. The CRC engine: the byte step and the meanings of `CRC.BEGIN`, `CRC.D1` to `CRC.D8`, `CRC.END`
(spec/40_crc32.md R70 to R80). `crc_r` holds the one's complement of the public value (R70). -/

namespace Sys2Proof.Machine

/-- `crc_byte(c, b) = (c >> 8) ^ TAB1[(c ^ zext_32(b))[7:0]]` (spec/00_scope.md R8). -/
def crcByte (c : Word) (b : Byte) : Word := (c >>> 8) ^^^ tab1 (slice8 (c ^^^ zext32 b) 0)

/-- `fold(c, bytes)`, `crc_byte` over the bytes in order (R81). -/
def crcFold (c : Word) (bytes : List Byte) : Word := bytes.foldl crcByte c

/-- A data command of the CRC engine: on an open engine its bytes are folded into `crc_r` in order; on a closed one it raises
`SequenceError(op)` (R72 to R79). -/
def crcBeat (op : Byte) (bytes : List Byte) (s : State) : Result :=
  sequenced s.crcOpen op (fun s => s.setCrcR (crcFold s.crcR bytes)) s

/-- `CRC.BEGIN state` (R71). -/
def execCrcBegin (state : Word) (s : State) : Result :=
  sequenced (!s.crcOpen) 0x10
    (fun s => ((s.setCrcSel (resolveSelection Config.kernelsCrc Config.cap s.crcSel)).setCrcR (~~~state)).setCrcOpen true) s

/-- `CRC.D1` (R72). -/
def execCrcD1 (b0 : Byte) (s : State) : Result := crcBeat 0x11 [b0] s

/-- `CRC.D2` (R73). -/
def execCrcD2 (b0 b1 : Byte) (s : State) : Result := crcBeat 0x12 [b0, b1] s

/-- `CRC.D3` (R74). -/
def execCrcD3 (b0 b1 b2 : Byte) (s : State) : Result := crcBeat 0x13 [b0, b1, b2] s

/-- `CRC.D4` (R75). -/
def execCrcD4 (b0 b1 b2 b3 : Byte) (s : State) : Result := crcBeat 0x14 [b0, b1, b2, b3] s

/-- `CRC.D5` (R76). -/
def execCrcD5 (b0 b1 b2 b3 b4 : Byte) (s : State) : Result := crcBeat 0x15 [b0, b1, b2, b3, b4] s

/-- `CRC.D6` (R77). -/
def execCrcD6 (b0 b1 b2 b3 b4 b5 : Byte) (s : State) : Result := crcBeat 0x16 [b0, b1, b2, b3, b4, b5] s

/-- `CRC.D7` (R78). -/
def execCrcD7 (b0 b1 b2 b3 b4 b5 b6 : Byte) (s : State) : Result := crcBeat 0x17 [b0, b1, b2, b3, b4, b5, b6] s

/-- `CRC.D8` (R79). -/
def execCrcD8 (b0 b1 b2 b3 b4 b5 b6 b7 : Byte) (s : State) : Result :=
  crcBeat 0x18 [b0, b1, b2, b3, b4, b5, b6, b7] s

/-- `CRC.END` (R80): `crc_r` is left as it was (D21; log entry 13). -/
def execCrcEnd (s : State) : Result :=
  sequenced s.crcOpen 0x19 (fun s => (s.respond (~~~s.crcR)).setCrcOpen false) s

end Sys2Proof.Machine
end

