-- ==== Sys2Proof/Machine/Sys.lean ====
section
/-! DEFINITION. The meanings of the two system commands (spec/42_system.md R130, R134). There is no other (R135). -/

namespace Sys2Proof.Machine

/-- `SYS.NOP`: no effect, in any state (R130). -/
def execSysNop (s : State) : Result := .next s

/-- `SYS.RDSTAT`: responds `STATUS`; reading clears nothing (R134). -/
def execSysRdstat (s : State) : Result := .next (s.respond (status s))

end Sys2Proof.Machine
end

