-- ==== Sys2Proof/Machine/Dispatch.lean ====
section
/-! DEFINITION. Dispatch: one arm per command of spec/opcode_table.json, each a direct call of its meaning. -/

namespace Sys2Proof.Machine

def exec (i : Instr) (s : State) : Host.Outcome State Fault Refusal :=
  match i with
  | .sysNop => Sys2Proof.Machine.execSysNop s
  | .sysRdstat => Sys2Proof.Machine.execSysRdstat s
  | .crcBegin v => Sys2Proof.Machine.execCrcBegin v s
  | .crcD1 b0 => Sys2Proof.Machine.execCrcD1 b0 s
  | .crcD2 b0 b1 => Sys2Proof.Machine.execCrcD2 b0 b1 s
  | .crcD3 b0 b1 b2 => Sys2Proof.Machine.execCrcD3 b0 b1 b2 s
  | .crcD4 b0 b1 b2 b3 => Sys2Proof.Machine.execCrcD4 b0 b1 b2 b3 s
  | .crcD5 b0 b1 b2 b3 b4 => Sys2Proof.Machine.execCrcD5 b0 b1 b2 b3 b4 s
  | .crcD6 b0 b1 b2 b3 b4 b5 => Sys2Proof.Machine.execCrcD6 b0 b1 b2 b3 b4 b5 s
  | .crcD7 b0 b1 b2 b3 b4 b5 b6 => Sys2Proof.Machine.execCrcD7 b0 b1 b2 b3 b4 b5 b6 s
  | .crcD8 b0 b1 b2 b3 b4 b5 b6 b7 => Sys2Proof.Machine.execCrcD8 b0 b1 b2 b3 b4 b5 b6 b7 s
  | .crcEnd => Sys2Proof.Machine.execCrcEnd s
  | .adlBegin v => Sys2Proof.Machine.execAdlBegin v s
  | .adlD1 b0 => Sys2Proof.Machine.execAdlD1 b0 s
  | .adlD2 b0 b1 => Sys2Proof.Machine.execAdlD2 b0 b1 s
  | .adlD3 b0 b1 b2 => Sys2Proof.Machine.execAdlD3 b0 b1 b2 s
  | .adlD4 b0 b1 b2 b3 => Sys2Proof.Machine.execAdlD4 b0 b1 b2 b3 s
  | .adlD5 b0 b1 b2 b3 b4 => Sys2Proof.Machine.execAdlD5 b0 b1 b2 b3 b4 s
  | .adlD6 b0 b1 b2 b3 b4 b5 => Sys2Proof.Machine.execAdlD6 b0 b1 b2 b3 b4 b5 s
  | .adlD7 b0 b1 b2 b3 b4 b5 b6 => Sys2Proof.Machine.execAdlD7 b0 b1 b2 b3 b4 b5 b6 s
  | .adlD8 b0 b1 b2 b3 b4 b5 b6 b7 => Sys2Proof.Machine.execAdlD8 b0 b1 b2 b3 b4 b5 b6 b7 s
  | .adlEnd => Sys2Proof.Machine.execAdlEnd s

end Sys2Proof.Machine
end

