-- ==== Sys2Proof/Machine/Port.lean ====
section
/-! DEFINITION. The two ports (spec/30_encoding.md R50): a command word taken from the command port is decoded and executed, a
reserved one raises `IllegalCommand` (R57, R60; spec/60_exceptions.md R141, R143); a full finite response queue holds the
command port (spec/10_state.md R19, spec/70_reset_and_hazards.md R166; log entry 6). -/

namespace Sys2Proof.Machine

/-- One command word taken from the command port (R60, R143): decode comes first, then the command's own sequence check. -/
def acceptCommand (w : CmdWord) (s : State) : Result :=
  match decode w with
  | .command i => exec i s
  | .reserved op => .next (s.raiseError .illegalCommand op)

/-- A response queue of a finite depth that is full (R19, R166); an unbounded one (`none`) never is. -/
def queueFull (depth : Option Nat) (rsp : List Word) : Bool :=
  match depth with
  | none => false
  | some d => decide (d ≤ rsp.length)

/-- The first action of the host that is not a command, taken out of the list: while the command port is held, commands wait in
order and the host's other pins go on (R166; log entry 6). -/
def firstNonCommand : List PortEvent → Option (PortEvent × List PortEvent)
  | [] => none
  | .command w :: rest => (firstNonCommand rest).map fun (e, rest') => (e, .command w :: rest')
  | .take :: rest => some (.take, rest)
  | .reset :: rest => some (.reset, rest)

/-- What happens next at the ports under a queue depth: `none` when the command port is held and nothing can lift the hold;
`some none` when the host does nothing (log entry 5); otherwise the action and the actions left. -/
def nextEvent (depth : Option Nat) (s : State) : Option (Option (PortEvent × List PortEvent)) :=
  match s.input with
  | [] => some none
  | .take :: rest => some (some (.take, rest))
  | .reset :: rest => some (some (.reset, rest))
  | .command w :: rest =>
    if queueFull depth s.rsp then (firstNonCommand (.command w :: rest)).map some
    else some (some (.command w, rest))

/-- One action of the host carried out by the block. -/
def perform (e : PortEvent) (s : State) : Result :=
  match e with
  | .command w => acceptCommand w s
  | .take => .next s.takeResponse
  | .reset => .next s.hardwareReset

/-- One step under a response queue depth (`RSP_DEPTH`, R5). -/
def stepAt (depth : Option Nat) (s : State) : Result :=
  match nextEvent depth s with
  | none => .fault .commandPortHeld
  | some none => .next s
  | some (some (e, rest)) => perform e (s.setInput rest)

/-- `s` with a command word offered before everything else the host does. -/
def offerFirst (w : CmdWord) (s : State) : State := s.setInput (.command w :: s.input)

end Sys2Proof.Machine
end

