-- ==== Sys2Proof/Machine/Step.lean ====
section
/-! DEFINITION. One step of the block: the host's next action at the ports, under the response queue the spec gives the model.
There is no program counter and no fetch (spec/10_state.md R16): the next command is the next one the host offers. -/

namespace Sys2Proof.Machine

/-- One step (R16, R39, R42). -/
def step (s : State) : Host.Outcome State Fault Refusal := stepAt Config.rspDepth s

/-- `s` with the command word of a row of the opcode table offered as the host's very next action (log entry 18). -/
def State.withFetchWord (s : State) (nbits w : Nat) : State := offerFirst (tableWord nbits w) s

end Sys2Proof.Machine
end

