-- ==== Sys2Proof/Machine/AdlWide.lean ====
section
/-! DEFINITION. The function the ADL commands compute (spec/41_adler32.md R111), and the source's grouped forms and chunked
reference (R112 to R115). No meaning uses the grouped forms; they are here to be proved equal to it. -/

namespace Sys2Proof.Machine

/-- `sum b_i` over the natural numbers (R111). -/
def byteSum : List Byte → Nat
  | [] => 0
  | b :: bs => b.toNat + byteSum bs

/-- `sum (L - i) * b_i` over the natural numbers, `L` the length (R111). -/
def weightedByteSum : List Byte → Nat
  | [] => 0
  | b :: bs => (bs.length + 1) * b.toNat + weightedByteSum bs

/-- `S1 = s1_0 + sum b_i` (R111). -/
def adlerS1 (state : Word) (bytes : List Byte) : Nat := (lowHalf state).toNat + byteSum bytes

/-- `S2 = s2_0 + L * s1_0 + sum (L - i) * b_i` (R111). -/
def adlerS2 (state : Word) (bytes : List Byte) : Nat :=
  (highHalf state).toNat + bytes.length * (lowHalf state).toNat + weightedByteSum bytes

/-- `adler32(state, bytes)` (R111): the state itself on no bytes, else both sums modulo 65521, packed. -/
def adler32 (state : Word) (bytes : List Byte) : Word :=
  if bytes = [] then state
  else packHalves (BitVec.ofNat 32 (adlerS2 state bytes % Config.adlerMod)) (BitVec.ofNat 32 (adlerS1 state bytes % Config.adlerMod))

/-- One operation of the engine on the registers alone, for a chunk bound: load, fold every byte, finish and pack (R100, R101,
R110). With the block's bound this is what the commands respond (R116 says the bound does not matter). -/
def adlOperationWith (chunkMax : Nat) (state : Word) (bytes : List Byte) : Word :=
  adlResponse (bytes.foldl (adlFoldWith chunkMax) (adlLoad state))

/-- `sum_{i} (n - i) * b_i` in 32-bit arithmetic, the first weight given (R112, R113). -/
def weightedWord : Nat → List Byte → Word
  | _, [] => 0
  | n, b :: bs => BitVec.ofNat 32 n * zext32 b + weightedWord (n - 1) bs

/-- `sum_{i} b_i` in 32-bit arithmetic (R112, R113). -/
def sumWord : List Byte → Word
  | [] => 0
  | b :: bs => zext32 b + sumWord bs

/-- The closed form of a group of `n` bytes: `s2' = s2 + n*s1 + sum (n-i)*b_i`, `s1' = s1 + sum b_i`, the old `s1` on the right
(R112 for 16, R113 for 4). -/
def adlGroup (n : Nat) (p : Word × Word) (bytes : List Byte) : Word × Word :=
  (p.1 + sumWord bytes, p.2 + BitVec.ofNat 32 n * p.1 + weightedWord n bytes)

/-- The 16-byte closed form, weights 16 down to 1 (R112; spec/90_conflicts.md C1). -/
def adlGroup16 (p : Word × Word) (bytes : List Byte) : Word × Word := adlGroup 16 p bytes

/-- The 4-byte closed form, weights 4..1 (R113). -/
def adlGroup4 (p : Word × Word) (bytes : List Byte) : Word × Word := adlGroup 4 p bytes

/-- One chunk of the reference: 16-byte groups, then 4-byte groups, then single bytes, then both sums reduced exactly once
(R115). -/
def adlChunk (p : Word × Word) (bytes : List Byte) : Word × Word :=
  let q := foldGroups 16 adlGroup16 bytes.length p bytes
  let r := foldGroups 4 adlGroup4 q.2.length q.1 q.2
  let u := r.2.foldl adlByte r.1
  (adlMod u.1, adlMod u.2)

/-- "while bytes remain, take a chunk of min(remaining, ADLER_CHUNK_MAX) bytes" (R115). The first argument bounds the number of
chunks; the number of bytes is always enough. -/
def adlChunks : Nat → Word × Word → List Byte → Word × Word
  | 0, p, _ => p
  | fuel + 1, p, bytes =>
    if bytes.isEmpty then p
    else adlChunks fuel (adlChunk p (bytes.take Config.adlerChunkMax)) (bytes.drop Config.adlerChunkMax)

/-- `adler32_reference(state, bytes)` (R115). -/
def adler32Reference (state : Word) (bytes : List Byte) : Word :=
  let p := adlChunks bytes.length (lowHalf state, highHalf state) bytes
  packHalves p.2 p.1

end Sys2Proof.Machine
end

