-- ==== Sys2Proof/Machine/Run.lean ====
section
/-! DEFINITION. Runs and what is seen of them (spec/70_reset_and_hazards.md R171), the pseudo-commands as command lists
(spec/30_encoding.md R62, R63) and the legal order of commands (R66). -/

namespace Sys2Proof.Machine

/-- A list of commands executed in order, stopping at the first that does not answer a next state (spec/20_memory.md R42). -/
def runCommands : List Instr → State → Result
  | [], s => .next s
  | i :: is, s =>
    match exec i s with
    | .next s' => runCommands is s'
    | .fault r => .fault r
    | .refused r => .refused r

/-- "the list of response words in order, together with the final value of `STATUS`" (R171): the words the host has taken and
those it still can. -/
def observation (s : State) : List Word × Word := (s.taken ++ s.rsp, status s)

/-- A data command of the CRC engine, with its bytes. -/
def crcBeatBytes : Instr → Option (List Byte)
  | .crcD1 b0 => some [b0]
  | .crcD2 b0 b1 => some [b0, b1]
  | .crcD3 b0 b1 b2 => some [b0, b1, b2]
  | .crcD4 b0 b1 b2 b3 => some [b0, b1, b2, b3]
  | .crcD5 b0 b1 b2 b3 b4 => some [b0, b1, b2, b3, b4]
  | .crcD6 b0 b1 b2 b3 b4 b5 => some [b0, b1, b2, b3, b4, b5]
  | .crcD7 b0 b1 b2 b3 b4 b5 b6 => some [b0, b1, b2, b3, b4, b5, b6]
  | .crcD8 b0 b1 b2 b3 b4 b5 b6 b7 => some [b0, b1, b2, b3, b4, b5, b6, b7]
  | .sysNop | .sysRdstat | .crcBegin _ | .crcEnd | .adlBegin _ | .adlEnd | .adlD1 _ | .adlD2 _ _ | .adlD3 _ _ _
  | .adlD4 _ _ _ _ | .adlD5 _ _ _ _ _ | .adlD6 _ _ _ _ _ _ | .adlD7 _ _ _ _ _ _ _ | .adlD8 _ _ _ _ _ _ _ _ => none

/-- A data command of the ADL engine, with its bytes. -/
def adlBeatBytes : Instr → Option (List Byte)
  | .adlD1 b0 => some [b0]
  | .adlD2 b0 b1 => some [b0, b1]
  | .adlD3 b0 b1 b2 => some [b0, b1, b2]
  | .adlD4 b0 b1 b2 b3 => some [b0, b1, b2, b3]
  | .adlD5 b0 b1 b2 b3 b4 => some [b0, b1, b2, b3, b4]
  | .adlD6 b0 b1 b2 b3 b4 b5 => some [b0, b1, b2, b3, b4, b5]
  | .adlD7 b0 b1 b2 b3 b4 b5 b6 => some [b0, b1, b2, b3, b4, b5, b6]
  | .adlD8 b0 b1 b2 b3 b4 b5 b6 b7 => some [b0, b1, b2, b3, b4, b5, b6, b7]
  | .sysNop | .sysRdstat | .crcBegin _ | .crcEnd | .adlBegin _ | .adlEnd | .crcD1 _ | .crcD2 _ _ | .crcD3 _ _ _
  | .crcD4 _ _ _ _ | .crcD5 _ _ _ _ _ | .crcD6 _ _ _ _ _ _ | .crcD7 _ _ _ _ _ _ _ | .crcD8 _ _ _ _ _ _ _ _ => none

/-- A command of the CRC engine (R51: unit 1). -/
def isCrcCommand (i : Instr) : Bool := opUnit (opcodeOf i) == 1

/-- A command of the ADL engine (R51: unit 2). -/
def isAdlCommand (i : Instr) : Bool := opUnit (opcodeOf i) == 2

/-- The bytes a list of commands carries to an engine, in command order (spec/20_memory.md R36). -/
def bytesOf (beat : Instr → Option (List Byte)) (is : List Instr) : List Byte := is.flatMap fun i => (beat i).getD []

/-- Every command of the list is a data command of the engine. -/
def allBeats (beat : Instr → Option (List Byte)) (is : List Instr) : Bool := is.all fun i => (beat i).isSome

/-- The beat `CRC.D<n>` of 1 to 8 bytes; of another number of bytes there is none (R54, R62). -/
def crcBeatOf : List Byte → List Instr
  | [b0] => [.crcD1 b0]
  | [b0, b1] => [.crcD2 b0 b1]
  | [b0, b1, b2] => [.crcD3 b0 b1 b2]
  | [b0, b1, b2, b3] => [.crcD4 b0 b1 b2 b3]
  | [b0, b1, b2, b3, b4] => [.crcD5 b0 b1 b2 b3 b4]
  | [b0, b1, b2, b3, b4, b5] => [.crcD6 b0 b1 b2 b3 b4 b5]
  | [b0, b1, b2, b3, b4, b5, b6] => [.crcD7 b0 b1 b2 b3 b4 b5 b6]
  | [b0, b1, b2, b3, b4, b5, b6, b7] => [.crcD8 b0 b1 b2 b3 b4 b5 b6 b7]
  | _ => []

/-- The beat `ADL.D<n>` of 1 to 8 bytes; of another number of bytes there is none (R54, R63). -/
def adlBeatOf : List Byte → List Instr
  | [b0] => [.adlD1 b0]
  | [b0, b1] => [.adlD2 b0 b1]
  | [b0, b1, b2] => [.adlD3 b0 b1 b2]
  | [b0, b1, b2, b3] => [.adlD4 b0 b1 b2 b3]
  | [b0, b1, b2, b3, b4] => [.adlD5 b0 b1 b2 b3 b4]
  | [b0, b1, b2, b3, b4, b5] => [.adlD6 b0 b1 b2 b3 b4 b5]
  | [b0, b1, b2, b3, b4, b5, b6] => [.adlD7 b0 b1 b2 b3 b4 b5 b6]
  | [b0, b1, b2, b3, b4, b5, b6, b7] => [.adlD8 b0 b1 b2 b3 b4 b5 b6 b7]
  | _ => []

/-- The beats of a byte sequence: full beats of 8 bytes, then one beat with the remainder if there is any (R62, R63). -/
def beatsOf (beat : List Byte → List Instr) (bytes : List Byte) : List Instr :=
  let p := foldGroups 8 (fun is group => is ++ beat group) bytes.length [] bytes
  p.1 ++ beat p.2

/-- The pseudo-command `CRC32 state, bytes` (R62). -/
def crc32Program (state : Word) (bytes : List Byte) : List Instr := .crcBegin state :: (beatsOf crcBeatOf bytes ++ [.crcEnd])

/-- The pseudo-command `ADLER32 state, bytes` (R63). -/
def adler32Program (state : Word) (bytes : List Byte) : List Instr := .adlBegin state :: (beatsOf adlBeatOf bytes ++ [.adlEnd])

/-- One engine's part of the legal order `( BEGIN Dn* END )*` as an automaton over its open flag (R66): `some` the flag after the
command where the command may stand there, `none` where it may not. -/
def crcOrder (isOpen : Bool) : Instr → Option Bool
  | .crcBegin _ => if isOpen then none else some true
  | .crcEnd => if isOpen then some false else none
  | .crcD1 _ | .crcD2 _ _ | .crcD3 _ _ _ | .crcD4 _ _ _ _ | .crcD5 _ _ _ _ _
  | .crcD6 _ _ _ _ _ _ | .crcD7 _ _ _ _ _ _ _ | .crcD8 _ _ _ _ _ _ _ _ => if isOpen then some true else none
  | .sysNop | .sysRdstat | .adlBegin _ | .adlEnd | .adlD1 _ | .adlD2 _ _ | .adlD3 _ _ _
  | .adlD4 _ _ _ _ | .adlD5 _ _ _ _ _ | .adlD6 _ _ _ _ _ _
  | .adlD7 _ _ _ _ _ _ _ | .adlD8 _ _ _ _ _ _ _ _ => some isOpen

/-- The same of the ADL engine (R66). -/
def adlOrder (isOpen : Bool) : Instr → Option Bool
  | .adlBegin _ => if isOpen then none else some true
  | .adlEnd => if isOpen then some false else none
  | .adlD1 _ | .adlD2 _ _ | .adlD3 _ _ _ | .adlD4 _ _ _ _ | .adlD5 _ _ _ _ _
  | .adlD6 _ _ _ _ _ _ | .adlD7 _ _ _ _ _ _ _ | .adlD8 _ _ _ _ _ _ _ _ => if isOpen then some true else none
  | .sysNop | .sysRdstat | .crcBegin _ | .crcEnd | .crcD1 _ | .crcD2 _ _ | .crcD3 _ _ _
  | .crcD4 _ _ _ _ | .crcD5 _ _ _ _ _ | .crcD6 _ _ _ _ _ _
  | .crcD7 _ _ _ _ _ _ _ | .crcD8 _ _ _ _ _ _ _ _ => some isOpen

/-- The open flag after a list of commands, `none` where the list leaves the legal order (R66). -/
def orderAfter (order : Bool → Instr → Option Bool) : Bool → List Instr → Option Bool
  | isOpen, [] => some isOpen
  | isOpen, i :: is => (order isOpen i).bind fun isOpen' => orderAfter order isOpen' is

/-- Every command of the list stands where it may, on both engines (R66). -/
def legalOrder (crcOpen adlOpen : Bool) (is : List Instr) : Bool :=
  (orderAfter crcOrder crcOpen is).isSome && (orderAfter adlOrder adlOpen is).isSome

/-- Command words offered at the command port, in order, and nothing else (R50). -/
def offered (ws : List CmdWord) (s : State) : State := s.setInput (ws.map .command)

end Sys2Proof.Machine
end

