-- ==== Sys2Proof/Machine/Assembler.lean ====
section
/-! DEFINITION. The assembler text (spec/30_encoding.md R61 to R64): a line of characters is read as a statement, a well-formed
statement becomes command words, a command word is written as 18 hexadecimal digits. What R61 leaves open (which operands are
refused, blanks, letter case) is log entry 16. Text is a list of characters. -/

namespace Sys2Proof.Machine

/-- `CRC32_INIT` (R64): an operand a host writes; no register holds it. -/
def crc32Init : Word := 0x00000000

/-- `ADLER32_INIT` (R64): an operand a host writes; no register holds it. -/
def adler32Init : Word := 0x00000001

/-- The mnemonics of R56, `UNIT.FN`, with their opcodes. -/
def mnemonicTable : List (String × Byte) :=
  [("SYS.NOP", 0x00), ("SYS.RDSTAT", 0x01),
   ("CRC.BEGIN", 0x10), ("CRC.D1", 0x11), ("CRC.D2", 0x12), ("CRC.D3", 0x13), ("CRC.D4", 0x14), ("CRC.D5", 0x15),
   ("CRC.D6", 0x16), ("CRC.D7", 0x17), ("CRC.D8", 0x18), ("CRC.END", 0x19),
   ("ADL.BEGIN", 0x20), ("ADL.D1", 0x21), ("ADL.D2", 0x22), ("ADL.D3", 0x23), ("ADL.D4", 0x24), ("ADL.D5", 0x25),
   ("ADL.D6", 0x26), ("ADL.D7", 0x27), ("ADL.D8", 0x28), ("ADL.END", 0x29)]

/-- The opcode a mnemonic stands for. -/
def opcodeOfMnemonic (name : List Char) : Option Byte :=
  (mnemonicTable.find? fun row => row.1.toList == name).map (·.2)

/-- The double quote of a byte string (R61). -/
def quoteChar : Char := Char.ofNat 34

/-- A space or a tab. -/
def isBlankChar (c : Char) : Bool := c == ' ' || c == '\t'

/-- Text without the blanks at its two ends. -/
def trimBlanks (cs : List Char) : List Char := ((cs.dropWhile isBlankChar).reverse.dropWhile isBlankChar).reverse

/-- "Comments start with `;`" (R61); a `;` inside a byte string starts none. The flag says whether a byte string is open. -/
def stripComment : Bool → List Char → List Char
  | _, [] => []
  | inString, c :: cs =>
    if c == quoteChar then c :: stripComment (!inString) cs
    else if c == ';' && !inString then []
    else c :: stripComment inString cs

/-- The hexadecimal digits, each at the position of its value, as a command word is written (R61). -/
def hexDigits : List Char := "0123456789ABCDEF".toList

/-- The value of a hexadecimal digit of either case: its place among the digits (R61; log entry 16). -/
def hexDigitValue (c : Char) : Option Nat := hexDigits.idxOf? c.toUpper

/-- The number a run of hexadecimal digits denotes, most significant first; `none` where one is no digit. -/
def hexValue (cs : List Char) : Option Nat := (cs.mapM hexDigitValue).map fun ds => ds.foldl (fun n d => 16 * n + d) 0

/-- "a hexadecimal number with prefix `0x`" (R61), of at least one digit. -/
def readNumber : List Char → Option Nat
  | '0' :: 'x' :: c :: cs => hexValue (c :: cs)
  | _ => none

/-- The two assembler constants with their names (R64). -/
def constantTable : List (List Char × Word) :=
  [("CRC32_INIT".toList, crc32Init), ("ADLER32_INIT".toList, adler32Init)]

/-- A number as it may be written wherever the syntax has one: in hexadecimal (R61), or by the name of a constant (R64;
log entry 16). -/
def readValue (cs : List Char) : Option Nat :=
  match constantTable.lookup cs with
  | some v => some v.toNat
  | none => readNumber cs

/-- The characters of a byte string up to its closing quote, which ends the text; each is one byte (R61). -/
def readStringBody : List Char → Option (List Byte)
  | [] => none
  | c :: cs =>
    if c == quoteChar then (if cs.isEmpty then some [] else none)
    else if c.toNat < 128 then (readStringBody cs).map (BitVec.ofNat 8 c.toNat :: ·)
    else none

/-- "A byte-string operand in double quotes ..., its first character at position 0" (R61). -/
def readString : List Char → Option (List Byte)
  | [] => none
  | c :: cs => if c == quoteChar then readStringBody cs else none

/-- The operand of a command: none, a number or a constant, or a byte string (R61, R64). -/
def readOperand (cs : List Char) : Option AsmOperand :=
  if cs.isEmpty then some .absent
  else match readValue cs with
    | some n => some (.number n)
    | none => (readString cs).map .text

/-- `state, bytes` of a pseudo-command, the state a number or a constant (R62 to R64). -/
def readStateAndBytes (cs : List Char) : Option (Nat × List Byte) :=
  match cs.span (· != ',') with
  | (st, _ :: bytes) =>
    (readValue (trimBlanks st)).bind fun n => (readString (trimBlanks bytes)).map fun bs => (n, bs)
  | (_, []) => none

/-- What a line of text is (R61): nothing (blank, or a comment only), a statement, or no line of the syntax. -/
inductive AsmLine where
  | blank
  | statement (x : AsmStatement)
  | rejected
  deriving DecidableEq, Repr

/-- A statement read, or a rejection. -/
def asmLineOf : Option AsmStatement → AsmLine
  | some x => .statement x
  | none => .rejected

/-- One line of text (R61 to R63). -/
def readLine (line : List Char) : AsmLine :=
  let cs := trimBlanks (stripComment false line)
  if cs.isEmpty then .blank
  else
    let word := cs.takeWhile fun c => !isBlankChar c
    let rest := trimBlanks (cs.dropWhile fun c => !isBlankChar c)
    if word == "CRC32".toList then asmLineOf ((readStateAndBytes rest).map fun p => .crc32 p.1 p.2)
    else if word == "ADLER32".toList then asmLineOf ((readStateAndBytes rest).map fun p => .adler32 p.1 p.2)
    else match opcodeOfMnemonic word with
      | some op => asmLineOf ((readOperand rest).map (.command op))
      | none => .rejected

/-- The data field of an operand: a number "placed in `data` right-aligned and zero-filled", a byte string with its first
character at position 0 (R61). -/
def operandData : AsmOperand → Data
  | .absent => 0
  | .number n => BitVec.ofNat 64 n
  | .text bytes => packBytes bytes

/-- The command words of a statement; `none` where it is ill-formed (R61 to R63). -/
def assemble (x : AsmStatement) : Option (List CmdWord) :=
  if asmStatementWf x then
    some (match x with
      | .command op operand => [cmdWord op (operandData operand)]
      | .crc32 state bytes => (crc32Program (BitVec.ofNat 32 state) bytes).map encode
      | .adler32 state bytes => (adler32Program (BitVec.ofNat 32 state) bytes).map encode)
  else none

/-- The command words of one line of text. -/
def assembleLine (line : List Char) : Option (List CmdWord) :=
  match readLine line with
  | .blank => some []
  | .statement x => assemble x
  | .rejected => none

/-- The command words of a program text, "one command per line" (R61). -/
def assembleLines (lines : List (List Char)) : Option (List CmdWord) := (lines.mapM assembleLine).map List.flatten

/-- A hexadecimal digit as it is written. -/
def hexDigitChar (d : Nat) : Char := hexDigits.getD d '?'

/-- "A command word is written as 18 hexadecimal digits, `op` first" (R61). -/
def wordText (w : CmdWord) : List Char :=
  (List.range 18).map fun k => hexDigitChar (w.toNat / 16 ^ (17 - k) % 16)

end Sys2Proof.Machine
end

