-- ==== Sys2Proof/Machine/CrcWide.lean ====
section
/-! DEFINITION. The function the CRC commands compute (spec/40_crc32.md R81) and the source's wide datapaths: the slice-by-8 word
combine (R83), the 64-byte block (R84), the four-byte form (R85), the tails (R86), the whole-buffer reference (R87), and the
slice-by-1 fallback (R88), which is `crcFold`. No meaning uses the wide forms; they are here to be proved equal to it. -/

namespace Sys2Proof.Machine

/-- `crc32(state, bytes) = ~ fold(~state, bytes)` (R81). -/
def crc32 (state : Word) (bytes : List Byte) : Word := ~~~(crcFold (~~~state) bytes)

/-- `lo = w[31:0]` (R83). -/
def loWord (w : Data) : Word := w.extractLsb' 0 32

/-- `hi = w[63:32]` (R83). -/
def hiWord (w : Data) : Word := w.extractLsb' 32 32

/-- `word8(c, w)`: eight lookups, combined by the source's balanced tree of XORs (R83). -/
def word8 (c : Word) (w : Data) : Word :=
  let x := loWord w ^^^ c
  let hi := hiWord w
  ((tab8 0 (slice8 x 0) ^^^ tab8 1 (slice8 x 1)) ^^^ (tab8 2 (slice8 x 2) ^^^ tab8 3 (slice8 x 3)))
    ^^^ ((tab8 4 (slice8 hi 0) ^^^ tab8 5 (slice8 hi 1)) ^^^ (tab8 6 (slice8 hi 2) ^^^ tab8 7 (slice8 hi 3)))

/-- `word8` over a list of 8-byte words in sequence; over eight of them it is the source's 64-byte block (R84). -/
def word8Fold (c : Word) (ws : List Data) : Word := ws.foldl word8 c

/-- `word4(c, v)`: sub-tables 4 to 7 for positions 0 to 3 (R85; spec/90_conflicts.md C4). -/
def word4 (c v : Word) : Word :=
  let x := c ^^^ v
  tab8 4 (slice8 x 0) ^^^ tab8 5 (slice8 x 1) ^^^ tab8 6 (slice8 x 2) ^^^ tab8 7 (slice8 x 3)

/-- `tail1` (R86). -/
def tail1 (c : Word) (b0 : Byte) : Word := (c >>> 8) ^^^ tab1 (slice8 (c ^^^ zext32 b0) 0)

/-- `tail2` (R86). -/
def tail2 (c : Word) (b0 b1 : Byte) : Word :=
  let x := c ^^^ (b1 ++ b0).setWidth 32
  (c >>> 16) ^^^ tab8 6 (slice8 x 0) ^^^ tab8 7 (slice8 x 1)

/-- `tail3` (R86). -/
def tail3 (c : Word) (b0 b1 b2 : Byte) : Word :=
  let x := c ^^^ (b2 ++ b1 ++ b0).setWidth 32
  (c >>> 24) ^^^ tab8 5 (slice8 x 0) ^^^ tab8 6 (slice8 x 1) ^^^ tab8 7 (slice8 x 2)

/-- The source's tier 4, "closed-form branches for exactly 1, 2, or 3 bytes"; it has no form for another length (R86;
spec/93_implementation_defined.md U5). -/
def crcTail (c : Word) : List Byte → Option Word
  | [b0] => some (tail1 c b0)
  | [b0, b1] => some (tail2 c b0 b1)
  | [b0, b1, b2] => some (tail3 c b0 b1 b2)
  | _ => none

/-- The 64 bytes of a block as eight little-endian words, word 0 first (R84). -/
def blockWords (bytes : List Byte) : List Data :=
  (List.range 8).map fun j => packBytes ((bytes.drop (8 * j)).take 8)

/-- Tier 1: one 64-byte block (R84). -/
def crcBlock64 (c : Word) (bytes : List Byte) : Word := word8Fold c (blockWords bytes)

/-- Tier 2: one 8-byte little-endian word (R83). -/
def crcWord64 (c : Word) (bytes : List Byte) : Word := word8 c (packBytes bytes)

/-- Tier 3: one 4-byte little-endian word (R85). -/
def crcWord32 (c : Word) (bytes : List Byte) : Word := word4 c (loWord (packBytes bytes))

/-- Tiers 3 and 4 on a remainder below 8 bytes (R87): one 4-byte word if there is one, then the tail if any byte is left. -/
def crcRemainder (c : Word) (bytes : List Byte) : Option Word :=
  let p := if 4 ≤ bytes.length then (crcWord32 c (bytes.take 4), bytes.drop 4) else (c, bytes)
  if p.2.isEmpty then some p.1 else crcTail p.1 p.2

/-- `crc32_reference(state, bytes)`, the four tiers applied in order (R87). `none` would be a remainder no tier has a form for;
it never arises (spec/90_conflicts.md C5). -/
def crc32Reference (state : Word) (bytes : List Byte) : Option Word :=
  let p := foldGroups 64 crcBlock64 bytes.length (~~~state) bytes
  let q := foldGroups 8 crcWord64 p.2.length p.1 p.2
  (crcRemainder q.1 q.2).map (~~~ ·)

end Sys2Proof.Machine
end

