-- ==== Sys2Proof/Safety.lean ====
section
/-! DEFINITION. What counts as a safe run, in the terms the statements use: the invariant of the reachable states, a
well-formed end of a run (spec/70_reset_and_hazards.md R171), and two relations between states that cannot be told apart: by the
registers of a closed engine (spec/10_state.md R11, R12, R24) and by the kernel a resolved latch names (R20; spec/42_system.md
R133). -/

namespace Sys2Proof.Machine

/-- The bounds of R14 at a command boundary: `adl_cnt` is at most 5551, and after `n` bytes since the last reduction the sums are
at most `65535 + 255*n` and `65535 + 65535*n + 255*n*(n+1)/2` (spec/10_state.md R13, R14). -/
def AdlRegs.Bounded (r : AdlRegs) : Prop :=
  r.cnt.toNat ≤ 5551 ∧ r.s1.toNat ≤ 65535 + 255 * r.cnt.toNat ∧
    r.s2.toNat ≤ 65535 + 65535 * r.cnt.toNat + 255 * (r.cnt.toNat * (r.cnt.toNat + 1) / 2)

/-- A latch that is resolved names what `select` gives (spec/42_system.md R132, R133). -/
def SelectionSound (kernels : List Kernel) (sel : Selection) : Prop :=
  sel ≠ .unresolved → sel = .resolved (select kernels Config.cap)

/-- The invariant of the reachable states: R14's bounds, sound latches, an open engine resolved, and `first_err_op` zero while
no error flag is set (R14, R24, R132, R145). -/
structure State.Inv (s : State) : Prop where
  adl_bounded  : s.adlRegs.Bounded
  crc_sel      : SelectionSound Config.kernelsCrc s.crcSel
  adl_sel      : SelectionSound Config.kernelsAdl s.adlSel
  crc_resolved : s.crcOpen = true → s.crcSel ≠ .unresolved
  adl_resolved : s.adlOpen = true → s.adlSel ≠ .unresolved
  first_err    : s.anyError = false → s.firstErrOp = 0

/-- A run "is well-formed when it raises no error and leaves both engines closed" (R171). -/
def State.WellFormedEnd (s : State) : Prop := s.anyError = false ∧ s.crcOpen = false ∧ s.adlOpen = false

/-- Two states that differ at most in the working registers of closed engines, "unobservable until" a `BEGIN` writes them
(R24; R11, R12). -/
structure AgreeOnVisible (s t : State) : Prop where
  crcOpen    : s.crcOpen = t.crcOpen
  adlOpen    : s.adlOpen = t.adlOpen
  crcR       : s.crcOpen = true → s.crcR = t.crcR
  adlRegs    : s.adlOpen = true → s.adlRegs = t.adlRegs
  errIll     : s.errIll = t.errIll
  errSeq     : s.errSeq = t.errSeq
  firstErrOp : s.firstErrOp = t.firstErrOp
  crcSel     : s.crcSel = t.crcSel
  adlSel     : s.adlSel = t.adlSel
  rsp        : s.rsp = t.rsp
  input      : s.input = t.input
  taken      : s.taken = t.taken

/-- Two states that differ at most in which kernel id a resolved latch names, "not observable" (R20; R133). -/
structure AgreeUpToKernel (s t : State) : Prop where
  crcR       : s.crcR = t.crcR
  crcOpen    : s.crcOpen = t.crcOpen
  adlRegs    : s.adlRegs = t.adlRegs
  adlOpen    : s.adlOpen = t.adlOpen
  errIll     : s.errIll = t.errIll
  errSeq     : s.errSeq = t.errSeq
  firstErrOp : s.firstErrOp = t.firstErrOp
  crcSel     : s.crcSel = .unresolved ↔ t.crcSel = .unresolved
  adlSel     : s.adlSel = .unresolved ↔ t.adlSel = .unresolved
  rsp        : s.rsp = t.rsp
  input      : s.input = t.input
  taken      : s.taken = t.taken

end Sys2Proof.Machine
end

