-- ==== Sys2Proof/Certificates/Slice0/Obligations.lean ====
section
/-! DEFINITION. The statements for the provers, from the numbered rules of spec/. First the few definitions they are written
with, each an independent reading of a rule: what an error entry leaves (R145), which command raises when (R142), which command
responds what (R65), which opcodes the table has (R56) and which bits of `data` a command uses (R53, R54). -/

open Sys2Proof Sys2Proof.Machine

namespace Sys2Proof.Stated

/-- The state after `raise SequenceError(op)`, written out from R145. -/
def afterSequenceError (op : Byte) (s : State) : State :=
  { s with errSeq := true, firstErrOp := if s.errIll = false ∧ s.errSeq = false then op else s.firstErrOp }

/-- The state after `raise IllegalCommand(op)`, written out from R145. -/
def afterIllegalCommand (op : Byte) (s : State) : State :=
  { s with errIll := true, firstErrOp := if s.errIll = false ∧ s.errSeq = false then op else s.firstErrOp }

/-- "raises when", the table of R142. -/
def outOfSequence : Instr → State → Bool
  | .sysNop, _ => false
  | .sysRdstat, _ => false
  | .crcBegin _, s => s.crcOpen
  | .crcD1 _, s => !s.crcOpen
  | .crcD2 _ _, s => !s.crcOpen
  | .crcD3 _ _ _, s => !s.crcOpen
  | .crcD4 _ _ _ _, s => !s.crcOpen
  | .crcD5 _ _ _ _ _, s => !s.crcOpen
  | .crcD6 _ _ _ _ _ _, s => !s.crcOpen
  | .crcD7 _ _ _ _ _ _ _, s => !s.crcOpen
  | .crcD8 _ _ _ _ _ _ _ _, s => !s.crcOpen
  | .crcEnd, s => !s.crcOpen
  | .adlBegin _, s => s.adlOpen
  | .adlD1 _, s => !s.adlOpen
  | .adlD2 _ _, s => !s.adlOpen
  | .adlD3 _ _ _, s => !s.adlOpen
  | .adlD4 _ _ _ _, s => !s.adlOpen
  | .adlD5 _ _ _ _ _, s => !s.adlOpen
  | .adlD6 _ _ _ _ _ _, s => !s.adlOpen
  | .adlD7 _ _ _ _ _ _ _, s => !s.adlOpen
  | .adlD8 _ _ _ _ _ _ _ _, s => !s.adlOpen
  | .adlEnd, s => !s.adlOpen

/-- The words a command appends to the response queue, R65: one for `CRC.END`, `ADL.END` and `SYS.RDSTAT` where it does not
raise, none otherwise. -/
def responsesOf (i : Instr) (s : State) : List Word :=
  if outOfSequence i s then []
  else if i = .sysRdstat then [status s]
  else if i = .crcEnd then [~~~s.crcR]
  else if i = .adlEnd then [adlResponse s.adlRegs]
  else []

/-- The 22 opcodes of R56. -/
def opcodes : List Byte :=
  [0x00, 0x01, 0x10, 0x11, 0x12, 0x13, 0x14, 0x15, 0x16, 0x17, 0x18, 0x19,
   0x20, 0x21, 0x22, 0x23, 0x24, 0x25, 0x26, 0x27, 0x28, 0x29]

/-- How many of the low bits of `data` a command of this opcode uses (R53, R54, R55). -/
def usedBitCount (op : Byte) : Nat :=
  if op = 0x10 ∨ op = 0x20 then 32
  else if (0x11 ≤ op.toNat ∧ op.toNat ≤ 0x18) then 8 * (op.toNat - 0x10)
  else if (0x21 ≤ op.toNat ∧ op.toNat ≤ 0x28) then 8 * (op.toNat - 0x20)
  else 0

/-- `CRC.BEGIN` or a data command of the CRC engine. -/
def writesCrcR (i : Instr) : Bool := (crcBeatBytes i).isSome || opcodeOf i == 0x10

/-- `ADL.BEGIN`, a data command of the ADL engine, or `ADL.END`. -/
def writesAdlRegs (i : Instr) : Bool := (adlBeatBytes i).isSome || opcodeOf i == 0x20 || opcodeOf i == 0x29

end Sys2Proof.Stated

open Sys2Proof.Stated

/-- SYS.NOP has no effect in any state, whatever its data bits (R130). -/
def Obligations.SysNopChangesNothing : Prop :=
  (∀ data : Data, decode (cmdWord 0x00 data) = .command .sysNop) ∧
  (∀ s : State, exec .sysNop s = .next s)

/-- SYS.RDSTAT appends STATUS to the responses and changes nothing else, in any state (R134). -/
def Obligations.RdstatRespondsStatus : Prop :=
  (∀ data : Data, decode (cmdWord 0x01 data) = .command .sysRdstat) ∧
  (∀ s : State, exec .sysRdstat s = .next { s with rsp := s.rsp ++ [status s] })

/-- Every field of STATUS is the state it names, and the reserved bits read as zero (R17). -/
def Obligations.StatusFieldsAsLaidOut : Prop :=
  ∀ s : State,
    (status s).getLsbD 0 = s.crcOpen ∧
    (status s).getLsbD 1 = s.adlOpen ∧
    ((status s).getLsbD 2 = true ↔ s.crcSel ≠ .unresolved) ∧
    ((status s).getLsbD 3 = true ↔ s.adlSel ≠ .unresolved) ∧
    (status s).getLsbD 4 = s.errIll ∧
    (status s).getLsbD 5 = s.errSeq ∧
    (status s).extractLsb' 6 2 = 0 ∧
    (status s).extractLsb' 8 8 = s.firstErrOp ∧
    (status s).extractLsb' 16 16 = 0 ∧
    status s = (s.firstErrOp.setWidth 32 <<< 8 ||| (if s.errSeq then 1 else 0 : Word) <<< 5 ||| (if s.errIll then 1 else 0 : Word) <<< 4
      ||| (if s.adlSel = .unresolved then 0 else 1 : Word) <<< 3 ||| (if s.crcSel = .unresolved then 0 else 1 : Word) <<< 2
      ||| (if s.adlOpen then 1 else 0 : Word) <<< 1 ||| (if s.crcOpen then 1 else 0) : Word)

/-- CRC.BEGIN loads the complement and opens the engine; on an open engine it raises SequenceError and writes nothing else (R71). -/
def Obligations.CrcBeginOpensEngine : Prop :=
  (∀ data : Data, decode (cmdWord 0x10 data) = .command (.crcBegin (data.extractLsb' 0 32))) ∧
  (∀ (v : Word) (s : State), s.crcOpen = false →
    exec (.crcBegin v) s = .next { s with
      crcSel := if s.crcSel = .unresolved then .resolved (select Config.kernelsCrc Config.cap) else s.crcSel
      crcR := ~~~v
      crcOpen := true }) ∧
  (∀ (v : Word) (s : State), s.crcOpen = true → exec (.crcBegin v) s = .next (afterSequenceError 0x10 s))

/-- CRC.D1 to CRC.D8 fold exactly their bytes into crc_r in stream order; on a closed engine they raise SequenceError (R72, R73,
R74, R75, R76, R77, R78, R79). -/
def Obligations.CrcBeatsFoldTheirBytes : Prop :=
  (∀ data : Data, decode (cmdWord 0x11 data) = .command (.crcD1 (data.extractLsb' 0 8))) ∧
  (∀ data : Data, decode (cmdWord 0x12 data) = .command (.crcD2 (data.extractLsb' 0 8) (data.extractLsb' 8 8))) ∧
  (∀ data : Data, decode (cmdWord 0x13 data) = .command (.crcD3 (data.extractLsb' 0 8) (data.extractLsb' 8 8) (data.extractLsb' 16 8))) ∧
  (∀ data : Data, decode (cmdWord 0x14 data) = .command (.crcD4 (data.extractLsb' 0 8) (data.extractLsb' 8 8) (data.extractLsb' 16 8) (data.extractLsb' 24 8))) ∧
  (∀ data : Data, decode (cmdWord 0x15 data) = .command (.crcD5 (data.extractLsb' 0 8) (data.extractLsb' 8 8) (data.extractLsb' 16 8) (data.extractLsb' 24 8) (data.extractLsb' 32 8))) ∧
  (∀ data : Data, decode (cmdWord 0x16 data) = .command (.crcD6 (data.extractLsb' 0 8) (data.extractLsb' 8 8) (data.extractLsb' 16 8) (data.extractLsb' 24 8) (data.extractLsb' 32 8) (data.extractLsb' 40 8))) ∧
  (∀ data : Data, decode (cmdWord 0x17 data) = .command (.crcD7 (data.extractLsb' 0 8) (data.extractLsb' 8 8) (data.extractLsb' 16 8) (data.extractLsb' 24 8) (data.extractLsb' 32 8) (data.extractLsb' 40 8) (data.extractLsb' 48 8))) ∧
  (∀ data : Data, decode (cmdWord 0x18 data) = .command (.crcD8 (data.extractLsb' 0 8) (data.extractLsb' 8 8) (data.extractLsb' 16 8) (data.extractLsb' 24 8) (data.extractLsb' 32 8) (data.extractLsb' 40 8) (data.extractLsb' 48 8) (data.extractLsb' 56 8))) ∧
  (∀ (b0 : Byte) (s : State), s.crcOpen = true →
    exec (.crcD1 b0) s = .next { s with crcR := crcByte s.crcR b0 }) ∧
  (∀ (b0 b1 : Byte) (s : State), s.crcOpen = true →
    exec (.crcD2 b0 b1) s = .next { s with crcR := (crcByte (crcByte s.crcR b0) b1) }) ∧
  (∀ (b0 b1 b2 : Byte) (s : State), s.crcOpen = true →
    exec (.crcD3 b0 b1 b2) s = .next { s with crcR := (crcByte (crcByte (crcByte s.crcR b0) b1) b2) }) ∧
  (∀ (b0 b1 b2 b3 : Byte) (s : State), s.crcOpen = true →
    exec (.crcD4 b0 b1 b2 b3) s = .next { s with crcR := (crcByte (crcByte (crcByte (crcByte s.crcR b0) b1) b2) b3) }) ∧
  (∀ (b0 b1 b2 b3 b4 : Byte) (s : State), s.crcOpen = true →
    exec (.crcD5 b0 b1 b2 b3 b4) s = .next { s with crcR := (crcByte (crcByte (crcByte (crcByte (crcByte s.crcR b0) b1) b2) b3) b4) }) ∧
  (∀ (b0 b1 b2 b3 b4 b5 : Byte) (s : State), s.crcOpen = true →
    exec (.crcD6 b0 b1 b2 b3 b4 b5) s = .next { s with crcR := (crcByte (crcByte (crcByte (crcByte (crcByte (crcByte s.crcR b0) b1) b2) b3) b4) b5) }) ∧
  (∀ (b0 b1 b2 b3 b4 b5 b6 : Byte) (s : State), s.crcOpen = true →
    exec (.crcD7 b0 b1 b2 b3 b4 b5 b6) s = .next { s with crcR := (crcByte (crcByte (crcByte (crcByte (crcByte (crcByte (crcByte s.crcR b0) b1) b2) b3) b4) b5) b6) }) ∧
  (∀ (b0 b1 b2 b3 b4 b5 b6 b7 : Byte) (s : State), s.crcOpen = true →
    exec (.crcD8 b0 b1 b2 b3 b4 b5 b6 b7) s = .next { s with crcR := (crcByte (crcByte (crcByte (crcByte (crcByte (crcByte (crcByte (crcByte s.crcR b0) b1) b2) b3) b4) b5) b6) b7) }) ∧
  (∀ (b0 : Byte) (s : State), s.crcOpen = false → exec (.crcD1 b0) s = .next (afterSequenceError 0x11 s)) ∧
  (∀ (b0 b1 : Byte) (s : State), s.crcOpen = false → exec (.crcD2 b0 b1) s = .next (afterSequenceError 0x12 s)) ∧
  (∀ (b0 b1 b2 : Byte) (s : State), s.crcOpen = false → exec (.crcD3 b0 b1 b2) s = .next (afterSequenceError 0x13 s)) ∧
  (∀ (b0 b1 b2 b3 : Byte) (s : State), s.crcOpen = false → exec (.crcD4 b0 b1 b2 b3) s = .next (afterSequenceError 0x14 s)) ∧
  (∀ (b0 b1 b2 b3 b4 : Byte) (s : State), s.crcOpen = false → exec (.crcD5 b0 b1 b2 b3 b4) s = .next (afterSequenceError 0x15 s)) ∧
  (∀ (b0 b1 b2 b3 b4 b5 : Byte) (s : State), s.crcOpen = false → exec (.crcD6 b0 b1 b2 b3 b4 b5) s = .next (afterSequenceError 0x16 s)) ∧
  (∀ (b0 b1 b2 b3 b4 b5 b6 : Byte) (s : State), s.crcOpen = false → exec (.crcD7 b0 b1 b2 b3 b4 b5 b6) s = .next (afterSequenceError 0x17 s)) ∧
  (∀ (b0 b1 b2 b3 b4 b5 b6 b7 : Byte) (s : State), s.crcOpen = false → exec (.crcD8 b0 b1 b2 b3 b4 b5 b6 b7) s = .next (afterSequenceError 0x18 s))

/-- CRC.END responds the complement of crc_r and closes the engine; on a closed engine it raises and responds nothing (R80). -/
def Obligations.CrcEndRespondsComplement : Prop :=
  (∀ data : Data, decode (cmdWord 0x19 data) = .command .crcEnd) ∧
  (∀ s : State, s.crcOpen = true → exec .crcEnd s = .next { s with rsp := s.rsp ++ [~~~s.crcR], crcOpen := false }) ∧
  (∀ s : State, s.crcOpen = false → exec .crcEnd s = .next (afterSequenceError 0x19 s)) ∧
  (∀ (v : Word) (s : State), s.crcOpen = false →
    ∃ t, runCommands [.crcBegin v, .crcEnd] s = .next t ∧ t.rsp = s.rsp ++ [v])

/-- crc_byte and adl_byte are the two pure functions of R8 (R8). -/
def Obligations.ByteStepsOfBothEngines : Prop :=
  (∀ (c : Word) (b : Byte), crcByte c b = (c >>> 8) ^^^ tab1 ((c ^^^ b.setWidth 32).extractLsb' 0 8)) ∧
  (∀ (s1 s2 : Word) (b : Byte), adlByte (s1, s2) b = (s1 + b.setWidth 32, s2 + s1 + b.setWidth 32))

/-- adl_fold adds the byte, adds the new sum, counts, and reduces exactly at the byte that makes the counter 5552 (R101). -/
def Obligations.AdlFoldOfOneByte : Prop :=
  ∀ (r : AdlRegs) (b : Byte),
    adlFold r b =
      if r.cnt + 1 = 5552 then
        ⟨(r.s1 + b.setWidth 32) % 65521, (r.s2 + (r.s1 + b.setWidth 32)) % 65521, 0⟩
      else ⟨r.s1 + b.setWidth 32, r.s2 + (r.s1 + b.setWidth 32), r.cnt + 1⟩

/-- ADL.BEGIN unpacks both halves without reduction and opens the engine; on an open engine it raises and writes nothing else
(R100). -/
def Obligations.AdlBeginLoadsHalves : Prop :=
  (∀ data : Data, decode (cmdWord 0x20 data) = .command (.adlBegin (data.extractLsb' 0 32))) ∧
  (∀ (v : Word) (s : State), s.adlOpen = false →
    exec (.adlBegin v) s = .next { s with
      adlSel := if s.adlSel = .unresolved then .resolved (select Config.kernelsAdl Config.cap) else s.adlSel
      adlS1 := (v.extractLsb' 0 16).setWidth 32
      adlS2 := (v.extractLsb' 16 16).setWidth 32
      adlCnt := 0
      adlOpen := true }) ∧
  (∀ (v : Word) (s : State), s.adlOpen = true → exec (.adlBegin v) s = .next (afterSequenceError 0x20 s))

/-- ADL.D1 to ADL.D8 fold exactly their bytes by adl_fold in stream order; on a closed engine they raise SequenceError (R102,
R103, R104, R105, R106, R107, R108, R109). -/
def Obligations.AdlBeatsFoldTheirBytes : Prop :=
  (∀ data : Data, decode (cmdWord 0x21 data) = .command (.adlD1 (data.extractLsb' 0 8))) ∧
  (∀ data : Data, decode (cmdWord 0x22 data) = .command (.adlD2 (data.extractLsb' 0 8) (data.extractLsb' 8 8))) ∧
  (∀ data : Data, decode (cmdWord 0x23 data) = .command (.adlD3 (data.extractLsb' 0 8) (data.extractLsb' 8 8) (data.extractLsb' 16 8))) ∧
  (∀ data : Data, decode (cmdWord 0x24 data) = .command (.adlD4 (data.extractLsb' 0 8) (data.extractLsb' 8 8) (data.extractLsb' 16 8) (data.extractLsb' 24 8))) ∧
  (∀ data : Data, decode (cmdWord 0x25 data) = .command (.adlD5 (data.extractLsb' 0 8) (data.extractLsb' 8 8) (data.extractLsb' 16 8) (data.extractLsb' 24 8) (data.extractLsb' 32 8))) ∧
  (∀ data : Data, decode (cmdWord 0x26 data) = .command (.adlD6 (data.extractLsb' 0 8) (data.extractLsb' 8 8) (data.extractLsb' 16 8) (data.extractLsb' 24 8) (data.extractLsb' 32 8) (data.extractLsb' 40 8))) ∧
  (∀ data : Data, decode (cmdWord 0x27 data) = .command (.adlD7 (data.extractLsb' 0 8) (data.extractLsb' 8 8) (data.extractLsb' 16 8) (data.extractLsb' 24 8) (data.extractLsb' 32 8) (data.extractLsb' 40 8) (data.extractLsb' 48 8))) ∧
  (∀ data : Data, decode (cmdWord 0x28 data) = .command (.adlD8 (data.extractLsb' 0 8) (data.extractLsb' 8 8) (data.extractLsb' 16 8) (data.extractLsb' 24 8) (data.extractLsb' 32 8) (data.extractLsb' 40 8) (data.extractLsb' 48 8) (data.extractLsb' 56 8))) ∧
  (∀ (b0 : Byte) (s : State), s.adlOpen = true →
    exec (.adlD1 b0) s = .next (s.setAdlRegs (adlFold s.adlRegs b0))) ∧
  (∀ (b0 b1 : Byte) (s : State), s.adlOpen = true →
    exec (.adlD2 b0 b1) s = .next (s.setAdlRegs (adlFold (adlFold s.adlRegs b0) b1))) ∧
  (∀ (b0 b1 b2 : Byte) (s : State), s.adlOpen = true →
    exec (.adlD3 b0 b1 b2) s = .next (s.setAdlRegs (adlFold (adlFold (adlFold s.adlRegs b0) b1) b2))) ∧
  (∀ (b0 b1 b2 b3 : Byte) (s : State), s.adlOpen = true →
    exec (.adlD4 b0 b1 b2 b3) s = .next (s.setAdlRegs (adlFold (adlFold (adlFold (adlFold s.adlRegs b0) b1) b2) b3))) ∧
  (∀ (b0 b1 b2 b3 b4 : Byte) (s : State), s.adlOpen = true →
    exec (.adlD5 b0 b1 b2 b3 b4) s = .next (s.setAdlRegs (adlFold (adlFold (adlFold (adlFold (adlFold s.adlRegs b0) b1) b2) b3) b4))) ∧
  (∀ (b0 b1 b2 b3 b4 b5 : Byte) (s : State), s.adlOpen = true →
    exec (.adlD6 b0 b1 b2 b3 b4 b5) s = .next (s.setAdlRegs (adlFold (adlFold (adlFold (adlFold (adlFold (adlFold s.adlRegs b0) b1) b2) b3) b4) b5))) ∧
  (∀ (b0 b1 b2 b3 b4 b5 b6 : Byte) (s : State), s.adlOpen = true →
    exec (.adlD7 b0 b1 b2 b3 b4 b5 b6) s = .next (s.setAdlRegs (adlFold (adlFold (adlFold (adlFold (adlFold (adlFold (adlFold s.adlRegs b0) b1) b2) b3) b4) b5) b6))) ∧
  (∀ (b0 b1 b2 b3 b4 b5 b6 b7 : Byte) (s : State), s.adlOpen = true →
    exec (.adlD8 b0 b1 b2 b3 b4 b5 b6 b7) s = .next (s.setAdlRegs (adlFold (adlFold (adlFold (adlFold (adlFold (adlFold (adlFold (adlFold s.adlRegs b0) b1) b2) b3) b4) b5) b6) b7))) ∧
  (∀ (b0 : Byte) (s : State), s.adlOpen = false → exec (.adlD1 b0) s = .next (afterSequenceError 0x21 s)) ∧
  (∀ (b0 b1 : Byte) (s : State), s.adlOpen = false → exec (.adlD2 b0 b1) s = .next (afterSequenceError 0x22 s)) ∧
  (∀ (b0 b1 b2 : Byte) (s : State), s.adlOpen = false → exec (.adlD3 b0 b1 b2) s = .next (afterSequenceError 0x23 s)) ∧
  (∀ (b0 b1 b2 b3 : Byte) (s : State), s.adlOpen = false → exec (.adlD4 b0 b1 b2 b3) s = .next (afterSequenceError 0x24 s)) ∧
  (∀ (b0 b1 b2 b3 b4 : Byte) (s : State), s.adlOpen = false → exec (.adlD5 b0 b1 b2 b3 b4) s = .next (afterSequenceError 0x25 s)) ∧
  (∀ (b0 b1 b2 b3 b4 b5 : Byte) (s : State), s.adlOpen = false → exec (.adlD6 b0 b1 b2 b3 b4 b5) s = .next (afterSequenceError 0x26 s)) ∧
  (∀ (b0 b1 b2 b3 b4 b5 b6 : Byte) (s : State), s.adlOpen = false → exec (.adlD7 b0 b1 b2 b3 b4 b5 b6) s = .next (afterSequenceError 0x27 s)) ∧
  (∀ (b0 b1 b2 b3 b4 b5 b6 b7 : Byte) (s : State), s.adlOpen = false → exec (.adlD8 b0 b1 b2 b3 b4 b5 b6 b7) s = .next (afterSequenceError 0x28 s))

/-- ADL.END reduces the partial chunk if there is one, responds the packed state and closes; on a closed engine it raises and
responds nothing (R110). -/
def Obligations.AdlEndReducesAndResponds : Prop :=
  (∀ data : Data, decode (cmdWord 0x29 data) = .command .adlEnd) ∧
  (∀ s : State, s.adlOpen = true → s.adlCnt ≠ 0 →
    exec .adlEnd s = .next { s with
      adlS1 := s.adlS1 % 65521
      adlS2 := s.adlS2 % 65521
      adlCnt := 0
      rsp := s.rsp ++ [((s.adlS2 % 65521) <<< 16) ||| (s.adlS1 % 65521)]
      adlOpen := false }) ∧
  (∀ s : State, s.adlOpen = true → s.adlCnt = 0 →
    exec .adlEnd s = .next { s with rsp := s.rsp ++ [(s.adlS2 <<< 16) ||| s.adlS1], adlOpen := false }) ∧
  (∀ s : State, s.adlOpen = false → exec .adlEnd s = .next (afterSequenceError 0x29 s)) ∧
  (∀ (v : Word) (s : State), s.adlOpen = false →
    ∃ t, runCommands [.adlBegin v, .adlEnd] s = .next t ∧ t.rsp = s.rsp ++ [v]) ∧
  (∀ r : AdlRegs, adlReduce (adlReduce r) = adlReduce r) ∧
  (∀ r : AdlRegs, r.Bounded → (adlFinish r).s1.toNat < 65536 ∧ (adlFinish r).s2.toNat < 65536)

/-- Raising an error sets its sticky flag, records the opcode if it is the first, and writes nothing else (R145). -/
def Obligations.ErrorEntryWritesFlagsOnly : Prop :=
  (∀ (op : Byte) (s : State), s.raiseError .illegalCommand op = afterIllegalCommand op s) ∧
  (∀ (op : Byte) (s : State), s.raiseError .sequenceError op = afterSequenceError op s)

/-- Every reserved opcode raises IllegalCommand, in any state, whatever its data: flag and first opcode, no engine state, no
response (R141, R57). -/
def Obligations.ReservedOpcodeRaisesIllegalCommand : Prop :=
  (∀ (w : CmdWord) (s : State),
    ((0x02 ≤ (opField w).toNat ∧ (opField w).toNat ≤ 0x0F) ∨ (0x1A ≤ (opField w).toNat ∧ (opField w).toNat ≤ 0x1F) ∨
      (0x2A ≤ (opField w).toNat ∧ (opField w).toNat ≤ 0x2F) ∨ 0x30 ≤ (opField w).toNat) →
    acceptCommand w s = .next (afterIllegalCommand (opField w) s) ∧
    ∀ rest, s.input = .command w :: rest → step s = .next (afterIllegalCommand (opField w) { s with input := rest })) ∧
  ((List.range 256).filter fun n => reservedOpcode (BitVec.ofNat 8 n)).length = 234 ∧
  (∀ op : Byte, reservedOpcode op = true ↔
    ((0x02 ≤ op.toNat ∧ op.toNat ≤ 0x0F) ∨ (0x1A ≤ op.toNat ∧ op.toNat ≤ 0x1F) ∨ (0x2A ≤ op.toNat ∧ op.toNat ≤ 0x2F) ∨ 0x30 ≤ op.toNat))

/-- A command raises SequenceError exactly where R142's table says; anywhere else it raises nothing (R142). -/
def Obligations.SequenceErrorExactlyWhenOutOfSequence : Prop :=
  ∀ (i : Instr) (s : State),
    (outOfSequence i s = true → exec i s = .next (afterSequenceError (opcodeOf i) s)) ∧
    (outOfSequence i s = false →
      ∃ t, exec i s = .next t ∧ t.errIll = s.errIll ∧ t.errSeq = s.errSeq ∧ t.firstErrOp = s.firstErrOp)

/-- No step but a reset clears an error flag or changes first_err_op once a flag is set, and errors stop nothing (R146). -/
def Obligations.ErrorFlagsStickyUntilReset : Prop :=
  ∀ s : State, ∃ t, step s = .next t ∧
    ((∀ rest, s.input ≠ .reset :: rest) →
      (s.errIll = true → t.errIll = true) ∧ (s.errSeq = true → t.errSeq = true) ∧
      (s.errIll = true ∨ s.errSeq = true → t.firstErrOp = s.firstErrOp)) ∧
    (∀ rest, s.input = .reset :: rest → t.errIll = false ∧ t.errSeq = false)

/-- Decoding an encoded command gives it back, for all 22 commands and every operand value (30_encoding.md section 2 and 3 (R51,
R53, R54, R56, R60)). -/
def Obligations.DecodeEncodeRoundTrip : Prop :=
  ∀ i : Instr, decode (encode i) = .command i

/-- A canonical command word is the encoding of what it decodes to, and every encoding is canonical (30_encoding.md section 2
(R53, R54, R55)). -/
def Obligations.EncodeDecodeOfCanonicalWords : Prop :=
  (∀ w : CmdWord, canonicalWord w = true → ∃ i, decode w = .command i ∧ encode i = w) ∧
  (∀ i : Instr, canonicalWord (encode i) = true)

/-- Two words with the same opcode that agree on the bits the command uses have the same effect in every state (R55). -/
def Obligations.IgnoredDataBitsHaveNoEffect : Prop :=
  (∀ (op : Byte) (d d' : Data) (s : State), (∀ k, k < usedBitCount op → d.getLsbD k = d'.getLsbD k) →
    acceptCommand (cmdWord op d) s = acceptCommand (cmdWord op d') s) ∧
  (∀ (i : Instr) (k : Nat), usedBitCount (opcodeOf i) ≤ k → (dataField (encode i)).getLsbD k = false)

/-- A word whose opcode is one of the 22 decodes to a command of that opcode; any other is a reserved encoding; data never matters
to this (R60). -/
def Obligations.DecodingIsTotalByOpcode : Prop :=
  ∀ w : CmdWord,
    (w.extractLsb' 64 8 ∈ opcodes → ∃ i, decode w = .command i ∧ opcodeOf i = w.extractLsb' 64 8) ∧
    (w.extractLsb' 64 8 ∉ opcodes → decode w = .reserved (w.extractLsb' 64 8))

/-- A few command words written out from the encoding decode to the commands they stand for (95_test_vectors.md sections 4, 5, 6;
30_encoding.md R61). -/
def Obligations.WordsWrittenOutDecode : Prop :=
  decode 0x000000000000000000#72 = .command .sysNop ∧
  decode 0x010000000000000000#72 = .command .sysRdstat ∧
  decode 0x1000000000CBF43926#72 = .command (.crcBegin 0xCBF43926) ∧
  decode 0x140000000034333231#72 = .command (.crcD4 0x31 0x32 0x33 0x34) ∧
  decode 0x11FFFFFFFFFFFFFF61#72 = .command (.crcD1 0x61) ∧
  decode 0x190000000000000000#72 = .command .crcEnd ∧
  decode 0x20ABCDEF0100000001#72 = .command (.adlBegin 1) ∧
  decode 0x2869646570696B6957#72 = .command (.adlD8 0x57 0x69 0x6B 0x69 0x70 0x65 0x64 0x69) ∧
  decode 0x290000000000000000#72 = .command .adlEnd ∧
  decode 0x3F0000000000001234#72 = .reserved 0x3F

/-- When the host's next action offers a word that decodes to i, the step is exec of i with that action taken off the list
(10_state.md R16; 20_memory.md R42; 30_encoding.md R60). -/
def Obligations.StepRunsDecodedCommand : Prop :=
  ∀ (w : CmdWord) (i : Instr) (s : State) (rest : List PortEvent),
    s.input = .command w :: rest → decode w = .command i → step s = exec i { s with input := rest }

/-- A take moves the front word of rsp to the host, and nothing else (10_state.md R19; 20_memory.md R39). -/
def Obligations.HostTakesResponsesInOrder : Prop :=
  (∀ (s : State) (rest : List PortEvent) (v : Word) (vs : List Word), s.input = .take :: rest → s.rsp = v :: vs →
    step s = .next { s with input := rest, rsp := vs, taken := s.taken ++ [v] }) ∧
  (∀ (s : State) (rest : List PortEvent), s.input = .take :: rest → s.rsp = [] → step s = .next { s with input := rest }) ∧
  (∀ s : State, s.input = [] → step s = .next s)

/-- The hardware reset, from any state, and State.reset itself, have the value the spec gives every piece of state (R24). -/
def Obligations.HardwareResetGivesResetState : Prop :=
  (∀ (s : State) (rest : List PortEvent), s.input = .reset :: rest →
    ∃ t, step s = .next t ∧ t.crcOpen = false ∧ t.adlOpen = false ∧ t.errIll = false ∧ t.errSeq = false ∧ t.firstErrOp = 0x00 ∧
      t.crcSel = .unresolved ∧ t.adlSel = .unresolved ∧ t.rsp = [] ∧ status t = 0) ∧
  State.reset.crcOpen = false ∧ State.reset.adlOpen = false ∧ State.reset.errIll = false ∧ State.reset.errSeq = false ∧
    State.reset.firstErrOp = 0x00 ∧ State.reset.crcSel = .unresolved ∧ State.reset.adlSel = .unresolved ∧ State.reset.rsp = [] ∧
    status State.reset = 0

/-- Running the machine over offered command words is executing the commands in order (20_memory.md R42; 30_encoding.md R50, R60;
10_state.md R16). -/
def Obligations.WordsRunAsTheirCommands : Prop :=
  ∀ (is : List Instr) (s : State),
    Host.Core.run Sys2Proof.core is.length (offered (is.map encode) s) = runCommands is (s.setInput [])

/-- A full finite response queue holds the command port until the host takes a word, loses no command and never overflows
(10_state.md R19; 70_reset_and_hazards.md R166; 93_implementation_defined.md U18). -/
def Obligations.QueueBackPressureHoldsCommands : Prop :=
  (∀ (d : Nat) (s : State), s.rsp.length < d → stepAt (some d) s = stepAt none s) ∧
  (∀ (d : Nat) (w : CmdWord) (ws : List CmdWord) (post : List PortEvent) (s : State), d ≤ s.rsp.length →
    s.input = .command w :: (ws.map .command ++ .take :: post) →
    stepAt (some d) s = .next (s.setInput (.command w :: (ws.map .command ++ post))).takeResponse) ∧
  (∀ (d : Nat) (w : CmdWord) (ws : List CmdWord) (s : State), d ≤ s.rsp.length → s.input = .command w :: ws.map .command →
    stepAt (some d) s = .fault .commandPortHeld) ∧
  (∀ (d : Nat) (s t : State), s.rsp.length ≤ d → stepAt (some d) s = .next t → t.rsp.length ≤ d)

/-- The reset state meets the machine's invariant (10_state.md R14, R24). -/
def Obligations.ResetMeetsInvariant : Prop :=
  State.reset.Inv

/-- Every step keeps the accumulator bounds (at a reset by log entry 2's zeros), sound selection latches, and first_err_op zero
while no error flag is set (10_state.md R13, R14; 42_system.md R132, R133; 60_exceptions.md R145). -/
def Obligations.StepKeepsInvariant : Prop :=
  ∀ s t : State, s.Inv → step s = .next t → t.Inv

/-- Within R14's bounds no 32-bit addition of the ADL engine wraps, and the bounds hold again after the byte (R14). -/
def Obligations.AdlerAdditionsNeverWrap : Prop :=
  (∀ (r : AdlRegs) (b : Byte), r.Bounded →
    (r.s1 + b.setWidth 32).toNat = r.s1.toNat + b.toNat ∧
    (r.s2 + (r.s1 + b.setWidth 32)).toNat = r.s2.toNat + (r.s1.toNat + b.toNat) ∧
    (adlFold r b).Bounded) ∧
  (∀ v : Word, (adlLoad v).Bounded ∧ (adlLoad v).cnt = 0 ∧ (adlLoad v).s1.toNat ≤ 65535 ∧ (adlLoad v).s2.toNat ≤ 65535) ∧
  (∀ r : AdlRegs, (adlReduce r).s1.toNat ≤ 65520 ∧ (adlReduce r).s2.toNat ≤ 65520 ∧ (adlReduce r).cnt = 0) ∧
  (65535 + 255 * 5552 = 1481295 ∧ 65535 + 65535 * 5552 + 255 * (5552 * 5553 / 2) = 4294773495 ∧ 4294773495 < 2 ^ 32 ∧
    65535 + 65535 * 5553 + 255 * (5553 * 5554 / 2) = 4296255045 ∧ 2 ^ 32 < 4296255045)

/-- select gives the first entry whose requirements CAP meets, REFERENCE if none; a resolved latch never changes until reset
(R132). -/
def Obligations.SelectionIsFirstQualifyingAndWriteOnce : Prop :=
  (∀ (pre post : List Kernel) (k : Kernel) (cap : List Capability),
    (∀ j ∈ pre, ¬ ∀ c ∈ j.requires, c ∈ cap) → (∀ c ∈ k.requires, c ∈ cap) → select (pre ++ k :: post) cap = .kernel k.id) ∧
  (∀ (ks : List Kernel) (cap : List Capability), (∀ j ∈ ks, ¬ ∀ c ∈ j.requires, c ∈ cap) → select ks cap = .reference) ∧
  (select Config.kernelsCrc Config.cap = .reference ∧ select Config.kernelsAdl Config.cap = .reference) ∧
  (∀ s t : State, step s = .next t → (∀ rest, s.input ≠ .reset :: rest) →
    (s.crcSel ≠ .unresolved → t.crcSel = s.crcSel) ∧ (s.adlSel ≠ .unresolved → t.adlSel = s.adlSel)) ∧
  (∀ (v : Word) (s : State), s.crcOpen = false → s.crcSel = .unresolved →
    ∃ t, exec (.crcBegin v) s = .next t ∧ t.crcSel = .resolved (select Config.kernelsCrc Config.cap) ∧ t.adlSel = s.adlSel) ∧
  (∀ (v : Word) (s : State), s.adlOpen = false → s.adlSel = .unresolved →
    ∃ t, exec (.adlBegin v) s = .next t ∧ t.adlSel = .resolved (select Config.kernelsAdl Config.cap) ∧ t.crcSel = s.crcSel) ∧
  (∀ (v : Word) (s : State), s.crcOpen = true → ∃ t, exec (.crcBegin v) s = .next t ∧ t.crcSel = s.crcSel ∧ t.adlSel = s.adlSel) ∧
  (∀ (v : Word) (s : State), s.adlOpen = true → ∃ t, exec (.adlBegin v) s = .next t ∧ t.crcSel = s.crcSel ∧ t.adlSel = s.adlSel)

/-- Which kernel a resolved latch names changes nothing the machine does or shows; of the latches only STATUS bits 2 and 3 can be
seen (10_state.md R20; 42_system.md R133). -/
def Obligations.SelectionChangesNoValue : Prop :=
  (∀ s t : State, AgreeUpToKernel s t → observation s = observation t ∧
    ∃ s' t', step s = .next s' ∧ step t = .next t' ∧ AgreeUpToKernel s' t' ∧ observation s' = observation t') ∧
  (∀ (s : State) (k : KernelId), s.crcSel ≠ .unresolved → AgreeUpToKernel s { s with crcSel := .resolved k }) ∧
  (∀ (s : State) (k : KernelId), s.adlSel ≠ .unresolved → AgreeUpToKernel s { s with adlSel := .resolved k }) ∧
  (∀ (s : State) (x y : Selection),
    (observation { s with crcSel := x, adlSel := y }).1 = (observation s).1 ∧
    (observation { s with crcSel := x, adlSel := y }).2 &&& ~~~0x0000000C = (observation s).2 &&& ~~~0x0000000C)

/-- A CRC operation over any beats raises nothing and responds crc32(state, bytes) (R81). -/
def Obligations.CrcOperationRespondsCrc32 : Prop :=
  (∀ (v : Word) (beats : List Instr) (s : State), allBeats crcBeatBytes beats = true → s.crcOpen = false →
    runCommands (.crcBegin v :: (beats ++ [.crcEnd])) s = .next { s with
      crcSel := if s.crcSel = .unresolved then .resolved (select Config.kernelsCrc Config.cap) else s.crcSel
      crcR := crcFold (~~~v) (bytesOf crcBeatBytes beats)
      rsp := s.rsp ++ [crc32 v (bytesOf crcBeatBytes beats)]
      crcOpen := false }) ∧
  (∀ (v : Word) (bytes : List Byte), crc32 v bytes = ~~~crcFold (~~~v) bytes) ∧
  (∀ c : Word, crcFold c [] = c) ∧
  (∀ (c : Word) (b : Byte) (rest : List Byte), crcFold c (b :: rest) = crcFold (crcByte c b) rest)

/-- An ADL operation over any beats, of any total length, raises nothing and responds adler32(state, bytes) (R111). -/
def Obligations.AdlOperationRespondsAdler32 : Prop :=
  (∀ (v : Word) (beats : List Instr) (s : State), allBeats adlBeatBytes beats = true → s.adlOpen = false →
    ∃ t, runCommands (.adlBegin v :: (beats ++ [.adlEnd])) s = .next t ∧
      t.rsp = s.rsp ++ [adler32 v (bytesOf adlBeatBytes beats)] ∧ t.adlOpen = false ∧
      t.errIll = s.errIll ∧ t.errSeq = s.errSeq ∧ t.firstErrOp = s.firstErrOp ∧
      t.crcR = s.crcR ∧ t.crcOpen = s.crcOpen ∧ t.crcSel = s.crcSel ∧ t.input = s.input ∧ t.taken = s.taken) ∧
  (∀ v : Word, adler32 v [] = v) ∧
  (∀ (v : Word) (bytes : List Byte), bytes ≠ [] →
    adler32 v bytes =
      (BitVec.ofNat 32 (((v.extractLsb' 16 16).toNat + bytes.length * (v.extractLsb' 0 16).toNat
          + ((List.range bytes.length).map fun i => (bytes.length - i) * (bytes.getD i 0).toNat).sum) % 65521)) <<< 16
        ||| BitVec.ofNat 32 (((v.extractLsb' 0 16).toNat + (bytes.map BitVec.toNat).sum) % 65521))

/-- Commands of the other engine and SYS commands may stand anywhere inside an operation without changing its result (20_memory.md
R42; 30_encoding.md R66; 92_eei_decisions.md D23). -/
def Obligations.InterleavedOperationsKeepTheirResults : Prop :=
  (∀ (v : Word) (mid : List Instr) (s : State), s.crcOpen = false → (∀ i ∈ mid, opcodeOf i ≠ 0x10 ∧ opcodeOf i ≠ 0x19) →
    ∃ t u, runCommands (.crcBegin v :: mid) s = .next t ∧ exec .crcEnd t = .next u ∧
      u.rsp = t.rsp ++ [crc32 v (bytesOf crcBeatBytes mid)]) ∧
  (∀ (v : Word) (mid : List Instr) (s : State), s.adlOpen = false → (∀ i ∈ mid, opcodeOf i ≠ 0x20 ∧ opcodeOf i ≠ 0x29) →
    ∃ t u, runCommands (.adlBegin v :: mid) s = .next t ∧ exec .adlEnd t = .next u ∧
      u.rsp = t.rsp ++ [adler32 v (bytesOf adlBeatBytes mid)])

/-- crc32: empty input is the identity, chained calls compose, and the standard check value (R91). -/
def Obligations.Crc32Laws : Prop :=
  (∀ v : Word, crc32 v [] = v) ∧
  (∀ (v : Word) (a b : List Byte), crc32 (crc32 v a) b = crc32 v (a ++ b)) ∧
  crc32 0 [0x31, 0x32, 0x33, 0x34, 0x35, 0x36, 0x37, 0x38, 0x39] = 0xCBF43926

/-- adler32: empty input is the identity, chained calls compose for every state, the range, the zero state, and the source's known
vectors (R117). -/
def Obligations.Adler32Laws : Prop :=
  (∀ v : Word, adler32 v [] = v) ∧
  (∀ (v : Word) (a b : List Byte), adler32 (adler32 v a) b = adler32 v (a ++ b)) ∧
  (∀ (v : Word) (bytes : List Byte), bytes ≠ [] → (lowHalf (adler32 v bytes)).toNat ≤ 65520 ∧ (highHalf (adler32 v bytes)).toNat ≤ 65520) ∧
  (∀ bytes : List Byte, (∀ b ∈ bytes, b = 0) → adler32 0 bytes = 0) ∧
  (adler32 1 (List.replicate 5552 0x41) = 2735505916 ∧ adler32 1 (List.replicate 5553 0x41) = 626557501 ∧
    adler32 1 (List.replicate 6000 0x41) = 4027970492)

/-- A half of 65521 or more enters the sums as the number it is (R118). -/
def Obligations.UnreducedAdlerStates : Prop :=
  adler32 0xFFFFFFFF [] = 0xFFFFFFFF ∧
  adler32 0xFFFFFFFF [0x00] = 0x001C000E ∧
  adler32 0xFFF1FFF1 [0x00] = 0x00000000 ∧
  (∀ (v : Word) (bytes : List Byte), adlerS1 v bytes = (v.extractLsb' 0 16).toNat + byteSum bytes ∧
    adlerS2 v bytes = (v.extractLsb' 16 16).toNat + bytes.length * (v.extractLsb' 0 16).toNat + weightedByteSum bytes)

/-- The slice-by-8 word combine equals eight byte steps, and the 64-byte block eight words (R83, R84). -/
def Obligations.SliceByEightEqualsByteSteps : Prop :=
  (∀ (c : Word) (w : Data), word8 c w =
    ((tab8 0 ((w.extractLsb' 0 32 ^^^ c).extractLsb' 0 8) ^^^ tab8 1 ((w.extractLsb' 0 32 ^^^ c).extractLsb' 8 8)) ^^^
      (tab8 2 ((w.extractLsb' 0 32 ^^^ c).extractLsb' 16 8) ^^^ tab8 3 ((w.extractLsb' 0 32 ^^^ c).extractLsb' 24 8))) ^^^
    ((tab8 4 (w.extractLsb' 32 8) ^^^ tab8 5 (w.extractLsb' 40 8)) ^^^ (tab8 6 (w.extractLsb' 48 8) ^^^ tab8 7 (w.extractLsb' 56 8)))) ∧
  (∀ (c : Word) (w : Data), word8 c w = crcFold c (beatBytes 8 w)) ∧
  (∀ (w : Data) (s : State), s.crcOpen = true →
    exec (.crcD8 (byteAt w 0) (byteAt w 1) (byteAt w 2) (byteAt w 3) (byteAt w 4) (byteAt w 5) (byteAt w 6) (byteAt w 7)) s
      = .next { s with crcR := word8 s.crcR w }) ∧
  (∀ (c : Word) (ws : List Data), word8Fold c ws = crcFold c (ws.flatMap (beatBytes 8))) ∧
  (∀ (c : Word) (ws : List Data), word8Fold c ws = ws.foldl word8 c)

/-- The four-byte form over sub-tables 4 to 7 equals four byte steps (R85). -/
def Obligations.FourByteFormEqualsByteSteps : Prop :=
  (∀ c v : Word, word4 c v = tab8 4 ((c ^^^ v).extractLsb' 0 8) ^^^ tab8 5 ((c ^^^ v).extractLsb' 8 8) ^^^
    tab8 6 ((c ^^^ v).extractLsb' 16 8) ^^^ tab8 7 ((c ^^^ v).extractLsb' 24 8)) ∧
  (∀ c v : Word, word4 c v = tableT 3 ((c ^^^ v).extractLsb' 0 8) ^^^ tableT 2 ((c ^^^ v).extractLsb' 8 8) ^^^
    tableT 1 ((c ^^^ v).extractLsb' 16 8) ^^^ tableT 0 ((c ^^^ v).extractLsb' 24 8)) ∧
  (∀ (v : Word) (s : State), s.crcOpen = true →
    exec (.crcD4 (v.extractLsb' 0 8) (v.extractLsb' 8 8) (v.extractLsb' 16 8) (v.extractLsb' 24 8)) s
      = .next { s with crcR := word4 s.crcR v })

/-- The one-, two- and three-byte closed forms equal the data commands CRC.D1, CRC.D2, CRC.D3 (R86). -/
def Obligations.TailFormsEqualByteSteps : Prop :=
  (∀ (c : Word) (b0 : Byte), tail1 c b0 = (c >>> 8) ^^^ tableT 0 ((c ^^^ b0.setWidth 32).extractLsb' 0 8)) ∧
  (∀ (c : Word) (b0 b1 : Byte), tail2 c b0 b1 =
    (c >>> 16) ^^^ tableT 1 ((c ^^^ (b1 ++ b0).setWidth 32).extractLsb' 0 8) ^^^ tableT 0 ((c ^^^ (b1 ++ b0).setWidth 32).extractLsb' 8 8)) ∧
  (∀ (c : Word) (b0 b1 b2 : Byte), tail3 c b0 b1 b2 =
    (c >>> 24) ^^^ tableT 2 ((c ^^^ (b2 ++ b1 ++ b0).setWidth 32).extractLsb' 0 8) ^^^
      tableT 1 ((c ^^^ (b2 ++ b1 ++ b0).setWidth 32).extractLsb' 8 8) ^^^ tableT 0 ((c ^^^ (b2 ++ b1 ++ b0).setWidth 32).extractLsb' 16 8)) ∧
  (∀ (b0 : Byte) (s : State), s.crcOpen = true → exec (.crcD1 b0) s = .next { s with crcR := tail1 s.crcR b0 }) ∧
  (∀ (b0 b1 : Byte) (s : State), s.crcOpen = true → exec (.crcD2 b0 b1) s = .next { s with crcR := tail2 s.crcR b0 b1 }) ∧
  (∀ (b0 b1 b2 : Byte) (s : State), s.crcOpen = true → exec (.crcD3 b0 b1 b2) s = .next { s with crcR := tail3 s.crcR b0 b1 b2 }) ∧
  ((∀ b : Byte, tableT 0 b = tab8 7 b ∧ tableT 0 b = tab1 b) ∧ (∀ b : Byte, tableT 1 b = tab8 6 b) ∧ (∀ b : Byte, tableT 2 b = tab8 5 b))

/-- The source's four-tier reference algorithm gives crc32(state, bytes) for every input, and no tier is ever entered without a
form (R87). -/
def Obligations.Crc32ReferenceComputesCrc32 : Prop :=
  ∀ (v : Word) (bytes : List Byte), crc32Reference v bytes = some (crc32 v bytes)

/-- crc_byte is eight single-bit steps of the reflected polynomial on the register with the byte XORed in (R82). -/
def Obligations.CrcByteIsEightBitSteps : Prop :=
  (∀ (c : Word) (b : Byte),
    crcByte c b = (fun x : Word => (x >>> 1) ^^^ (if x.getLsbD 0 = true then 0xEDB88320 else 0))^[8] (c ^^^ b.setWidth 32)) ∧
  (∀ k, k < 32 → ((0xEDB88320 : Word).getLsbD (31 - k) = true ↔ k ∈ [0, 1, 2, 4, 5, 7, 8, 10, 11, 12, 16, 22, 23, 26]))

/-- crc_byte and every table are linear over XOR (40_crc32.md section 4 (R90)). -/
def Obligations.CrcByteIsLinear : Prop :=
  (∀ (c c' : Word) (b b' : Byte), crcByte (c ^^^ c') (b ^^^ b') = crcByte c b ^^^ crcByte c' b') ∧
  (∀ (j : Nat) (b b' : Byte), tableT j (b ^^^ b') = tableT j b ^^^ tableT j b')

/-- A zero byte changes crc_r unless crc_r is zero (40_crc32.md section 2 (R72, corner cases)). -/
def Obligations.ZeroByteFixesOnlyZeroRegister : Prop :=
  (∀ c : Word, crcByte c 0 = c ↔ c = 0) ∧
  (∀ s : State, s.crcOpen = true → (exec (.crcD1 0) s = .next s ↔ s.crcR = 0))

/-- The 16-byte and 4-byte closed forms equal sixteen and four byte steps, and ADL.D4 where no chunk ends inside (R112, R113). -/
def Obligations.AdlerGroupsEqualByteSteps : Prop :=
  (∀ (s1 s2 : Word) (b0 b1 b2 b3 b4 b5 b6 b7 b8 b9 b10 b11 b12 b13 b14 b15 : Byte),
    [b0, b1, b2, b3, b4, b5, b6, b7, b8, b9, b10, b11, b12, b13, b14, b15].foldl adlByte (s1, s2) =
      (s1 + (zext32 b0 + zext32 b1 + zext32 b2 + zext32 b3 + zext32 b4 + zext32 b5 + zext32 b6 + zext32 b7 + zext32 b8 + zext32 b9 + zext32 b10 + zext32 b11 + zext32 b12 + zext32 b13 + zext32 b14 + zext32 b15),
       s2 + 16 * s1 + (16 * zext32 b0 + 15 * zext32 b1 + 14 * zext32 b2 + 13 * zext32 b3 + 12 * zext32 b4 + 11 * zext32 b5 + 10 * zext32 b6 + 9 * zext32 b7 + 8 * zext32 b8 + 7 * zext32 b9 + 6 * zext32 b10 + 5 * zext32 b11 + 4 * zext32 b12 + 3 * zext32 b13 + 2 * zext32 b14 + 1 * zext32 b15))) ∧
  (∀ (s1 s2 : Word) (b0 b1 b2 b3 : Byte), [b0, b1, b2, b3].foldl adlByte (s1, s2) =
    (s1 + (zext32 b0 + zext32 b1 + zext32 b2 + zext32 b3), s2 + 4 * s1 + (4 * zext32 b0 + 3 * zext32 b1 + 2 * zext32 b2 + zext32 b3))) ∧
  (∀ (p : Word × Word) (bytes : List Byte), bytes.length = 16 → adlGroup16 p bytes = bytes.foldl adlByte p) ∧
  (∀ (p : Word × Word) (bytes : List Byte), bytes.length = 4 → adlGroup4 p bytes = bytes.foldl adlByte p) ∧
  (∀ (r : AdlRegs) (bytes : List Byte), r.cnt.toNat + bytes.length < 5552 →
    ((adlFoldBytes r bytes).s1, (adlFoldBytes r bytes).s2) = bytes.foldl adlByte (r.s1, r.s2)) ∧
  (∀ (b0 b1 b2 b3 : Byte) (s : State), s.adlOpen = true → s.adlCnt.toNat + 4 < 5552 →
    exec (.adlD4 b0 b1 b2 b3) s = .next { s with
      adlS1 := (adlGroup4 (s.adlS1, s.adlS2) [b0, b1, b2, b3]).1
      adlS2 := (adlGroup4 (s.adlS1, s.adlS2) [b0, b1, b2, b3]).2
      adlCnt := s.adlCnt + 4 })

/-- The source's chunked reference algorithm gives adler32(state, bytes) for every input (R115). -/
def Obligations.Adler32ReferenceComputesAdler32 : Prop :=
  ∀ (v : Word) (bytes : List Byte), adler32Reference v bytes = adler32 v bytes

/-- Any chunk bound from 1 to 5552 gives the same response, adler32(state, bytes) (41_adler32.md section 4 (R116);
92_eei_decisions.md D17). -/
def Obligations.ChunkBoundDoesNotMatter : Prop :=
  (∀ m : Nat, chunkBoundWf m = true ↔ 1 ≤ m ∧ m ≤ 5552) ∧
  (∀ (m : Nat) (v : Word) (bytes : List Byte), chunkBoundWf m = true → adlOperationWith m v bytes = adler32 v bytes)

/-- How a byte sequence is cut into beats changes nothing, for both engines (R36). -/
def Obligations.BeatPartitionDoesNotMatter : Prop :=
  (∀ (xs ys : List Instr) (s : State), allBeats crcBeatBytes xs = true → allBeats crcBeatBytes ys = true →
    bytesOf crcBeatBytes xs = bytesOf crcBeatBytes ys → s.crcOpen = true →
    ∃ t, runCommands xs s = .next t ∧ runCommands ys s = .next t) ∧
  (∀ (xs ys : List Instr) (s : State), allBeats adlBeatBytes xs = true → allBeats adlBeatBytes ys = true →
    bytesOf adlBeatBytes xs = bytesOf adlBeatBytes ys → s.adlOpen = true →
    ∃ t, runCommands xs s = .next t ∧ runCommands ys s = .next t)

/-- A command of one engine and one of the other, in either order, leave the same registers, flags of the engines and latches
(20_memory.md section 5 (R42); 92_eei_decisions.md D23). -/
def Obligations.EnginesCommute : Prop :=
  ∀ (i j : Instr) (s : State), isCrcCommand i = true → isAdlCommand j = true →
    ∃ a b, runCommands [i, j] s = .next a ∧ runCommands [j, i] s = .next b ∧
      a.crcR = b.crcR ∧ a.crcOpen = b.crcOpen ∧ a.crcSel = b.crcSel ∧ a.adlRegs = b.adlRegs ∧ a.adlOpen = b.adlOpen ∧
      a.adlSel = b.adlSel ∧ a.errIll = b.errIll ∧ a.errSeq = b.errSeq

/-- The tables hold what R33 defines (R33). -/
def Obligations.TableContentsAsDefined : Prop :=
  (∀ c : Word, step1 c = (c >>> 1) ^^^ (if c.getLsbD 0 = true then 0xEDB88320 else 0x00000000)) ∧
  (∀ b : Byte, tableT 0 b = step1^[8] (b.setWidth 32)) ∧
  (∀ (j : Nat) (b : Byte), j < 7 → tableT (j + 1) b = (tableT j b >>> 8) ^^^ tableT 0 ((tableT j b).extractLsb' 0 8)) ∧
  (∀ b : Byte, tab1 b = tableT 0 b) ∧
  (∀ (k : Fin 8) (b : Byte), tab8 k b = tableT (7 - k.val) b)

/-- Every table read is at word address k*256 + i, in 0..2047 (R32). -/
def Obligations.TableAddressesInRange : Prop :=
  (∀ (k : Fin 8) (i : Byte), (tab8Addr k i).val = k.val * 256 + i.toNat ∧ (tab8Addr k i).val ≤ 2047 ∧ tab8 k i = tab8Word (tab8Addr k i)) ∧
  (∀ (k k' : Fin 8) (i i' : Byte), tab8Addr k i = tab8Addr k' i' → k = k' ∧ i = i')

/-- The working registers of a closed engine affect nothing that can be seen, now or later (10_state.md section 11 (R24), R11,
R12; 93_implementation_defined.md U15, U16). -/
def Obligations.ClosedEngineRegistersAreUnobservable : Prop :=
  (∀ s t s' : State, AgreeOnVisible s t → step s = .next s' → ∃ t', step t = .next t' ∧ AgreeOnVisible s' t') ∧
  (∀ s t : State, AgreeOnVisible s t → observation s = observation t) ∧
  (∀ (r : Word) (a : AdlRegs), AgreeOnVisible State.reset ((State.reset.setCrcR r).setAdlRegs a))

/-- CRC.END, ADL.END and SYS.RDSTAT append exactly one word when they do not raise; every other command appends nothing (R65). -/
def Obligations.ExactlyThreeCommandsRespond : Prop :=
  (∀ (i : Instr) (s : State), ∃ t, exec i s = .next t ∧ t.rsp = s.rsp ++ responsesOf i s) ∧
  (∀ (w : CmdWord) (op : Byte) (s : State), decode w = .reserved op → ∃ t, acceptCommand w s = .next t ∧ t.rsp = s.rsp)

/-- What each command leaves unchanged: every register is written only by the commands R10 lists for it (10_state.md section 1
(R10, column written by), section 4 (R15)). -/
def Obligations.EachRegisterWrittenOnlyByItsCommands : Prop :=
  ∀ (i : Instr) (s : State), ∃ t, exec i s = .next t ∧
    (writesCrcR i = false → t.crcR = s.crcR) ∧
    (opcodeOf i ≠ 0x10 → opcodeOf i ≠ 0x19 → t.crcOpen = s.crcOpen) ∧
    (opcodeOf i ≠ 0x10 → t.crcSel = s.crcSel) ∧
    (writesAdlRegs i = false → t.adlS1 = s.adlS1 ∧ t.adlS2 = s.adlS2 ∧ t.adlCnt = s.adlCnt) ∧
    (opcodeOf i ≠ 0x20 → opcodeOf i ≠ 0x29 → t.adlOpen = s.adlOpen) ∧
    (opcodeOf i ≠ 0x20 → t.adlSel = s.adlSel) ∧
    (opcodeOf i ≠ 0x01 → opcodeOf i ≠ 0x19 → opcodeOf i ≠ 0x29 → t.rsp = s.rsp) ∧
    t.input = s.input ∧ t.taken = s.taken

/-- A command sequence raises no error exactly when its commands on each engine follow ( BEGIN Dn* END )* (30_encoding.md section
6 (R66); 60_exceptions.md R140, R142). -/
def Obligations.NoErrorExactlyInLegalOrder : Prop :=
  ∀ (is : List Instr) (s : State), s.anyError = false →
    ∃ t, runCommands is s = .next t ∧ (t.anyError = false ↔ legalOrder s.crcOpen s.adlOpen is = true) ∧
      (t.anyError = false → orderAfter crcOrder s.crcOpen is = some t.crcOpen ∧ orderAfter adlOrder s.adlOpen is = some t.adlOpen)

/-- A run from closed engines without errors ends so again exactly when each engine's commands form ( BEGIN Dn* END )*
(30_encoding.md section 6 (R66); 70_reset_and_hazards.md section 5 (R171)). -/
def Obligations.WellFormedRunsAreTheLegalLanguage : Prop :=
  ∀ (is : List Instr) (s : State), s.WellFormedEnd →
    ∃ t, runCommands is s = .next t ∧
      (t.WellFormedEnd ↔
        (∃ ops : List (List Instr), is.filter isCrcCommand = ops.flatten ∧
          ∀ op ∈ ops, ∃ v beats, op = .crcBegin v :: (beats ++ [.crcEnd]) ∧ allBeats crcBeatBytes beats = true) ∧
        (∃ ops : List (List Instr), is.filter isAdlCommand = ops.flatten ∧
          ∀ op ∈ ops, ∃ v beats, op = .adlBegin v :: (beats ++ [.adlEnd]) ∧ allBeats adlBeatBytes beats = true))

/-- CRC32 and ADLER32 expand as R62 and R63 say and produce one response, the value of the function (R62, R63). -/
def Obligations.PseudoCommandsRealiseTheFunctions : Prop :=
  (∀ (v : Word) (bytes : List Byte), crc32Program v bytes = .crcBegin v :: (beatsOf crcBeatOf bytes ++ [.crcEnd]) ∧
    adler32Program v bytes = .adlBegin v :: (beatsOf adlBeatOf bytes ++ [.adlEnd])) ∧
  (∀ bytes : List Byte, (beatsOf crcBeatOf bytes).length = bytes.length / 8 + (if 0 < bytes.length % 8 then 1 else 0)) ∧
  (∀ bytes : List Byte, (beatsOf adlBeatOf bytes).length = bytes.length / 8 + (if 0 < bytes.length % 8 then 1 else 0)) ∧
  (∀ (bytes : List Byte) (j : Nat) (i : Instr), (beatsOf crcBeatOf bytes)[j]? = some i →
    crcBeatBytes i = some ((bytes.drop (8 * j)).take 8)) ∧
  (∀ (bytes : List Byte) (j : Nat) (i : Instr), (beatsOf adlBeatOf bytes)[j]? = some i →
    adlBeatBytes i = some ((bytes.drop (8 * j)).take 8)) ∧
  (∀ (v : Word) (bytes : List Byte) (s : State), s.crcOpen = false →
    ∃ t, runCommands (crc32Program v bytes) s = .next t ∧ t.rsp = s.rsp ++ [crc32 v bytes] ∧ t.crcOpen = false ∧
      t.errIll = s.errIll ∧ t.errSeq = s.errSeq ∧ t.firstErrOp = s.firstErrOp) ∧
  (∀ (v : Word) (bytes : List Byte) (s : State), s.adlOpen = false →
    ∃ t, runCommands (adler32Program v bytes) s = .next t ∧ t.rsp = s.rsp ++ [adler32 v bytes] ∧ t.adlOpen = false ∧
      t.errIll = s.errIll ∧ t.errSeq = s.errSeq ∧ t.firstErrOp = s.firstErrOp)

/-- No step but a reset takes back or reorders a response: what has been seen stays the front of what is seen later (10_state.md
section 8 (R19); 70_reset_and_hazards.md R171). -/
def Obligations.ObservedResponsesOnlyGrow : Prop :=
  ∀ s : State, (∀ rest, s.input ≠ .reset :: rest) →
    ∃ t, step s = .next t ∧ ∃ vs, (observation t).1 = (observation s).1 ++ vs ∧ vs.length ≤ 1

/-- A line well-formed by log entry 16 assembles to the encoding of one command, the two operand forms of a beat agree, and the
constants stand for their values (30_encoding.md section 7 (R61, R64)). -/
def Obligations.AssemblerWordsRoundTrip : Prop :=
  (∀ (op : Byte) (x : AsmOperand), asmStatementWf (.command op x) = true →
    ∃ i, assemble (.command op x) = some [encode i] ∧ opcodeOf i = op) ∧
  (∀ (op : Byte) (bytes : List Byte), asmOperandWf op (.text bytes) = true → reservedOpcode op = false →
    assemble (.command op (.text bytes)) = some [cmdWord op (packBytes bytes)] ∧
    assemble (.command op (.number (packBytes bytes).toNat)) = some [cmdWord op (packBytes bytes)]) ∧
  (assembleLine "CRC.BEGIN CRC32_INIT".toList = some [0x100000000000000000#72] ∧
    assembleLine "ADL.BEGIN ADLER32_INIT".toList = some [0x200000000000000001#72])

/-- The function run under a selection is the kernel's whose id select gives, else the reference, and the checksum function if
kernels meet their contract (42_system.md R131, R132; 40_crc32.md R92; 41_adler32.md R119). -/
def Obligations.SelectedFunctionIsFirstQualifyingKernel : Prop :=
  (∀ (pre post : List Kernel) (k : Kernel) (cap : List Capability) (reference : Word → List Byte → Word),
    (∀ j ∈ pre, ¬ ∀ c ∈ j.requires, c ∈ cap) → (∀ c ∈ k.requires, c ∈ cap) →
    select (pre ++ k :: post) cap = .kernel k.id ∧ selectedFunction (pre ++ k :: post) cap reference = k.run) ∧
  (∀ (ks : List Kernel) (cap : List Capability) (reference : Word → List Byte → Word),
    (∀ j ∈ ks, ¬ ∀ c ∈ j.requires, c ∈ cap) → select ks cap = .reference ∧ selectedFunction ks cap reference = reference) ∧
  (∀ (f reference : Word → List Byte → Word) (ks : List Kernel) (cap : List Capability),
    (∀ k ∈ ks, kernelMeetsContract f k) → (∀ v bytes, reference v bytes = f v bytes) →
    ∀ v bytes, selectedFunction ks cap reference v bytes = f v bytes)
end

