-- ==== Sys2Proof/Laws/Encode.lean ====
section
/-! SUPPORT. The small lemmas of the encoding tables: the fields of an assembled command word, the operands cut back out of an
assembled data field, and what the decoder answers for a word given by its two fields. -/

namespace Sys2Proof

open Machine

@[simp] theorem opField_cmdWord (op : Byte) (d : Data) : opField (cmdWord op d) = op := by
  simp only [opField, cmdWord]
  ext i hi
  simp [BitVec.getElem_extractLsb', hi, show 64 + i < 72 by omega]

@[simp] theorem dataField_cmdWord (op : Byte) (d : Data) : dataField (cmdWord op d) = d := by
  simp only [dataField, cmdWord]
  ext i hi
  simp [BitVec.getElem_extractLsb', hi, show i < 72 by omega]

/-- A command word is its two fields (R51). -/
theorem cmdWord_fields (w : CmdWord) : cmdWord (opField w) (dataField w) = w := by
  simp only [opField, dataField, cmdWord]
  ext i hi
  by_cases h : i < 64
  · simp [h, hi]
  · simp [h, hi, show i - 64 < 8 by omega, show 64 + (i - 64) = i by omega]

/-- A word whose opcode has a row decodes to that row's command on its data (R60). -/
theorem decode_of_lookup {op : Byte} {operands : Data → Instr} (h : lookupOpcode op = some operands) (d : Data) :
    decode (cmdWord op d) = .command (operands d) := by
  unfold decode
  rw [opField_cmdWord, dataField_cmdWord, h]

/-- A word whose opcode has no row is reserved (R57, R60). -/
theorem decode_of_lookup_none {op : Byte} (h : lookupOpcode op = none) (d : Data) :
    decode (cmdWord op d) = .reserved op := by
  unfold decode
  rw [opField_cmdWord, h]

@[simp] theorem stateOperand_stateData (v : Word) : stateOperand (stateData v) = v := by
  simp only [stateOperand, stateData]
  ext i hi
  simp [BitVec.getElem_extractLsb', hi, show i < 64 by omega]

/-- Byte 0 of a packed beat is the beat's first byte (R35). -/
theorem byteAt_packBytes_zero (b : Byte) (bs : List Byte) : byteAt (packBytes (b :: bs)) 0 = b := by
  simp only [byteAt, packBytes]
  ext i hi
  simp [BitVec.getElem_extractLsb', hi, show i < 64 by omega]

/-- Byte `i+1` of a packed beat is byte `i` of the rest (R35). -/
theorem byteAt_packBytes_succ (b : Byte) (bs : List Byte) {i : Nat} (hi : i < 7) :
    byteAt (packBytes (b :: bs)) (i + 1) = byteAt (packBytes bs) i := by
  simp only [byteAt, packBytes]
  ext j hj
  have h1 : ¬ 8 * (i + 1) + j < 8 := by omega
  have h2 : 8 * (i + 1) + j - 8 = 8 * i + j := by omega
  have h3 : 8 * (i + 1) + j < 64 := by omega
  have h4 : b.getLsbD (8 * (i + 1) + j) = false := BitVec.getLsbD_of_ge _ _ (by omega)
  have h5 : 8 * i + j < 64 := by omega
  simp [BitVec.getElem_extractLsb', h1, h2, h3, h4, BitVec.getLsbD_eq_getElem h5]

@[simp] theorem byteAt_packBytes_nil (i : Nat) : byteAt (packBytes []) i = 0 := by
  simp [byteAt, packBytes]

end Sys2Proof
end

