-- ==== Sys2Proof/Laws/State.lean ====
section
/-! SUPPORT. One lemma per field per named update of State, so that no proof unfolds a record update; the same for raising an
error, for the hardware reset and for the view `adlRegs`. -/

namespace Sys2Proof.Machine

variable (s : State)

section
variable (v : Word)

@[simp] theorem State.setCrcR_crcR : (s.setCrcR v).crcR = v := rfl
@[simp] theorem State.setCrcR_crcOpen : (s.setCrcR v).crcOpen = s.crcOpen := rfl
@[simp] theorem State.setCrcR_adlS1 : (s.setCrcR v).adlS1 = s.adlS1 := rfl
@[simp] theorem State.setCrcR_adlS2 : (s.setCrcR v).adlS2 = s.adlS2 := rfl
@[simp] theorem State.setCrcR_adlCnt : (s.setCrcR v).adlCnt = s.adlCnt := rfl
@[simp] theorem State.setCrcR_adlOpen : (s.setCrcR v).adlOpen = s.adlOpen := rfl
@[simp] theorem State.setCrcR_errIll : (s.setCrcR v).errIll = s.errIll := rfl
@[simp] theorem State.setCrcR_errSeq : (s.setCrcR v).errSeq = s.errSeq := rfl
@[simp] theorem State.setCrcR_firstErrOp : (s.setCrcR v).firstErrOp = s.firstErrOp := rfl
@[simp] theorem State.setCrcR_crcSel : (s.setCrcR v).crcSel = s.crcSel := rfl
@[simp] theorem State.setCrcR_adlSel : (s.setCrcR v).adlSel = s.adlSel := rfl
@[simp] theorem State.setCrcR_rsp : (s.setCrcR v).rsp = s.rsp := rfl
@[simp] theorem State.setCrcR_input : (s.setCrcR v).input = s.input := rfl
@[simp] theorem State.setCrcR_taken : (s.setCrcR v).taken = s.taken := rfl
@[simp] theorem State.setCrcR_adlRegs : (s.setCrcR v).adlRegs = s.adlRegs := rfl

end

section
variable (b : Bool)

@[simp] theorem State.setCrcOpen_crcR : (s.setCrcOpen b).crcR = s.crcR := rfl
@[simp] theorem State.setCrcOpen_crcOpen : (s.setCrcOpen b).crcOpen = b := rfl
@[simp] theorem State.setCrcOpen_adlS1 : (s.setCrcOpen b).adlS1 = s.adlS1 := rfl
@[simp] theorem State.setCrcOpen_adlS2 : (s.setCrcOpen b).adlS2 = s.adlS2 := rfl
@[simp] theorem State.setCrcOpen_adlCnt : (s.setCrcOpen b).adlCnt = s.adlCnt := rfl
@[simp] theorem State.setCrcOpen_adlOpen : (s.setCrcOpen b).adlOpen = s.adlOpen := rfl
@[simp] theorem State.setCrcOpen_errIll : (s.setCrcOpen b).errIll = s.errIll := rfl
@[simp] theorem State.setCrcOpen_errSeq : (s.setCrcOpen b).errSeq = s.errSeq := rfl
@[simp] theorem State.setCrcOpen_firstErrOp : (s.setCrcOpen b).firstErrOp = s.firstErrOp := rfl
@[simp] theorem State.setCrcOpen_crcSel : (s.setCrcOpen b).crcSel = s.crcSel := rfl
@[simp] theorem State.setCrcOpen_adlSel : (s.setCrcOpen b).adlSel = s.adlSel := rfl
@[simp] theorem State.setCrcOpen_rsp : (s.setCrcOpen b).rsp = s.rsp := rfl
@[simp] theorem State.setCrcOpen_input : (s.setCrcOpen b).input = s.input := rfl
@[simp] theorem State.setCrcOpen_taken : (s.setCrcOpen b).taken = s.taken := rfl
@[simp] theorem State.setCrcOpen_adlRegs : (s.setCrcOpen b).adlRegs = s.adlRegs := rfl

end

section
variable (x : Selection)

@[simp] theorem State.setCrcSel_crcR : (s.setCrcSel x).crcR = s.crcR := rfl
@[simp] theorem State.setCrcSel_crcOpen : (s.setCrcSel x).crcOpen = s.crcOpen := rfl
@[simp] theorem State.setCrcSel_adlS1 : (s.setCrcSel x).adlS1 = s.adlS1 := rfl
@[simp] theorem State.setCrcSel_adlS2 : (s.setCrcSel x).adlS2 = s.adlS2 := rfl
@[simp] theorem State.setCrcSel_adlCnt : (s.setCrcSel x).adlCnt = s.adlCnt := rfl
@[simp] theorem State.setCrcSel_adlOpen : (s.setCrcSel x).adlOpen = s.adlOpen := rfl
@[simp] theorem State.setCrcSel_errIll : (s.setCrcSel x).errIll = s.errIll := rfl
@[simp] theorem State.setCrcSel_errSeq : (s.setCrcSel x).errSeq = s.errSeq := rfl
@[simp] theorem State.setCrcSel_firstErrOp : (s.setCrcSel x).firstErrOp = s.firstErrOp := rfl
@[simp] theorem State.setCrcSel_crcSel : (s.setCrcSel x).crcSel = x := rfl
@[simp] theorem State.setCrcSel_adlSel : (s.setCrcSel x).adlSel = s.adlSel := rfl
@[simp] theorem State.setCrcSel_rsp : (s.setCrcSel x).rsp = s.rsp := rfl
@[simp] theorem State.setCrcSel_input : (s.setCrcSel x).input = s.input := rfl
@[simp] theorem State.setCrcSel_taken : (s.setCrcSel x).taken = s.taken := rfl
@[simp] theorem State.setCrcSel_adlRegs : (s.setCrcSel x).adlRegs = s.adlRegs := rfl

end

section
variable (r : AdlRegs)

@[simp] theorem State.setAdlRegs_crcR : (s.setAdlRegs r).crcR = s.crcR := rfl
@[simp] theorem State.setAdlRegs_crcOpen : (s.setAdlRegs r).crcOpen = s.crcOpen := rfl
@[simp] theorem State.setAdlRegs_adlS1 : (s.setAdlRegs r).adlS1 = r.s1 := rfl
@[simp] theorem State.setAdlRegs_adlS2 : (s.setAdlRegs r).adlS2 = r.s2 := rfl
@[simp] theorem State.setAdlRegs_adlCnt : (s.setAdlRegs r).adlCnt = r.cnt := rfl
@[simp] theorem State.setAdlRegs_adlOpen : (s.setAdlRegs r).adlOpen = s.adlOpen := rfl
@[simp] theorem State.setAdlRegs_errIll : (s.setAdlRegs r).errIll = s.errIll := rfl
@[simp] theorem State.setAdlRegs_errSeq : (s.setAdlRegs r).errSeq = s.errSeq := rfl
@[simp] theorem State.setAdlRegs_firstErrOp : (s.setAdlRegs r).firstErrOp = s.firstErrOp := rfl
@[simp] theorem State.setAdlRegs_crcSel : (s.setAdlRegs r).crcSel = s.crcSel := rfl
@[simp] theorem State.setAdlRegs_adlSel : (s.setAdlRegs r).adlSel = s.adlSel := rfl
@[simp] theorem State.setAdlRegs_rsp : (s.setAdlRegs r).rsp = s.rsp := rfl
@[simp] theorem State.setAdlRegs_input : (s.setAdlRegs r).input = s.input := rfl
@[simp] theorem State.setAdlRegs_taken : (s.setAdlRegs r).taken = s.taken := rfl
@[simp] theorem State.setAdlRegs_adlRegs : (s.setAdlRegs r).adlRegs = r := rfl

end

section
variable (b : Bool)

@[simp] theorem State.setAdlOpen_crcR : (s.setAdlOpen b).crcR = s.crcR := rfl
@[simp] theorem State.setAdlOpen_crcOpen : (s.setAdlOpen b).crcOpen = s.crcOpen := rfl
@[simp] theorem State.setAdlOpen_adlS1 : (s.setAdlOpen b).adlS1 = s.adlS1 := rfl
@[simp] theorem State.setAdlOpen_adlS2 : (s.setAdlOpen b).adlS2 = s.adlS2 := rfl
@[simp] theorem State.setAdlOpen_adlCnt : (s.setAdlOpen b).adlCnt = s.adlCnt := rfl
@[simp] theorem State.setAdlOpen_adlOpen : (s.setAdlOpen b).adlOpen = b := rfl
@[simp] theorem State.setAdlOpen_errIll : (s.setAdlOpen b).errIll = s.errIll := rfl
@[simp] theorem State.setAdlOpen_errSeq : (s.setAdlOpen b).errSeq = s.errSeq := rfl
@[simp] theorem State.setAdlOpen_firstErrOp : (s.setAdlOpen b).firstErrOp = s.firstErrOp := rfl
@[simp] theorem State.setAdlOpen_crcSel : (s.setAdlOpen b).crcSel = s.crcSel := rfl
@[simp] theorem State.setAdlOpen_adlSel : (s.setAdlOpen b).adlSel = s.adlSel := rfl
@[simp] theorem State.setAdlOpen_rsp : (s.setAdlOpen b).rsp = s.rsp := rfl
@[simp] theorem State.setAdlOpen_input : (s.setAdlOpen b).input = s.input := rfl
@[simp] theorem State.setAdlOpen_taken : (s.setAdlOpen b).taken = s.taken := rfl
@[simp] theorem State.setAdlOpen_adlRegs : (s.setAdlOpen b).adlRegs = s.adlRegs := rfl

end

section
variable (x : Selection)

@[simp] theorem State.setAdlSel_crcR : (s.setAdlSel x).crcR = s.crcR := rfl
@[simp] theorem State.setAdlSel_crcOpen : (s.setAdlSel x).crcOpen = s.crcOpen := rfl
@[simp] theorem State.setAdlSel_adlS1 : (s.setAdlSel x).adlS1 = s.adlS1 := rfl
@[simp] theorem State.setAdlSel_adlS2 : (s.setAdlSel x).adlS2 = s.adlS2 := rfl
@[simp] theorem State.setAdlSel_adlCnt : (s.setAdlSel x).adlCnt = s.adlCnt := rfl
@[simp] theorem State.setAdlSel_adlOpen : (s.setAdlSel x).adlOpen = s.adlOpen := rfl
@[simp] theorem State.setAdlSel_errIll : (s.setAdlSel x).errIll = s.errIll := rfl
@[simp] theorem State.setAdlSel_errSeq : (s.setAdlSel x).errSeq = s.errSeq := rfl
@[simp] theorem State.setAdlSel_firstErrOp : (s.setAdlSel x).firstErrOp = s.firstErrOp := rfl
@[simp] theorem State.setAdlSel_crcSel : (s.setAdlSel x).crcSel = s.crcSel := rfl
@[simp] theorem State.setAdlSel_adlSel : (s.setAdlSel x).adlSel = x := rfl
@[simp] theorem State.setAdlSel_rsp : (s.setAdlSel x).rsp = s.rsp := rfl
@[simp] theorem State.setAdlSel_input : (s.setAdlSel x).input = s.input := rfl
@[simp] theorem State.setAdlSel_taken : (s.setAdlSel x).taken = s.taken := rfl
@[simp] theorem State.setAdlSel_adlRegs : (s.setAdlSel x).adlRegs = s.adlRegs := rfl

end

section
variable (v : Word)

@[simp] theorem State.respond_crcR : (s.respond v).crcR = s.crcR := rfl
@[simp] theorem State.respond_crcOpen : (s.respond v).crcOpen = s.crcOpen := rfl
@[simp] theorem State.respond_adlS1 : (s.respond v).adlS1 = s.adlS1 := rfl
@[simp] theorem State.respond_adlS2 : (s.respond v).adlS2 = s.adlS2 := rfl
@[simp] theorem State.respond_adlCnt : (s.respond v).adlCnt = s.adlCnt := rfl
@[simp] theorem State.respond_adlOpen : (s.respond v).adlOpen = s.adlOpen := rfl
@[simp] theorem State.respond_errIll : (s.respond v).errIll = s.errIll := rfl
@[simp] theorem State.respond_errSeq : (s.respond v).errSeq = s.errSeq := rfl
@[simp] theorem State.respond_firstErrOp : (s.respond v).firstErrOp = s.firstErrOp := rfl
@[simp] theorem State.respond_crcSel : (s.respond v).crcSel = s.crcSel := rfl
@[simp] theorem State.respond_adlSel : (s.respond v).adlSel = s.adlSel := rfl
@[simp] theorem State.respond_rsp : (s.respond v).rsp = s.rsp ++ [v] := rfl
@[simp] theorem State.respond_input : (s.respond v).input = s.input := rfl
@[simp] theorem State.respond_taken : (s.respond v).taken = s.taken := rfl
@[simp] theorem State.respond_adlRegs : (s.respond v).adlRegs = s.adlRegs := rfl

end

section
variable (es : List PortEvent)

@[simp] theorem State.setInput_crcR : (s.setInput es).crcR = s.crcR := rfl
@[simp] theorem State.setInput_crcOpen : (s.setInput es).crcOpen = s.crcOpen := rfl
@[simp] theorem State.setInput_adlS1 : (s.setInput es).adlS1 = s.adlS1 := rfl
@[simp] theorem State.setInput_adlS2 : (s.setInput es).adlS2 = s.adlS2 := rfl
@[simp] theorem State.setInput_adlCnt : (s.setInput es).adlCnt = s.adlCnt := rfl
@[simp] theorem State.setInput_adlOpen : (s.setInput es).adlOpen = s.adlOpen := rfl
@[simp] theorem State.setInput_errIll : (s.setInput es).errIll = s.errIll := rfl
@[simp] theorem State.setInput_errSeq : (s.setInput es).errSeq = s.errSeq := rfl
@[simp] theorem State.setInput_firstErrOp : (s.setInput es).firstErrOp = s.firstErrOp := rfl
@[simp] theorem State.setInput_crcSel : (s.setInput es).crcSel = s.crcSel := rfl
@[simp] theorem State.setInput_adlSel : (s.setInput es).adlSel = s.adlSel := rfl
@[simp] theorem State.setInput_rsp : (s.setInput es).rsp = s.rsp := rfl
@[simp] theorem State.setInput_input : (s.setInput es).input = es := rfl
@[simp] theorem State.setInput_taken : (s.setInput es).taken = s.taken := rfl
@[simp] theorem State.setInput_adlRegs : (s.setInput es).adlRegs = s.adlRegs := rfl

end

section
variable (cause : ErrorCause) (op : Byte)

@[simp] theorem State.raiseError_crcR : (s.raiseError cause op).crcR = s.crcR := rfl
@[simp] theorem State.raiseError_crcOpen : (s.raiseError cause op).crcOpen = s.crcOpen := rfl
@[simp] theorem State.raiseError_adlS1 : (s.raiseError cause op).adlS1 = s.adlS1 := rfl
@[simp] theorem State.raiseError_adlS2 : (s.raiseError cause op).adlS2 = s.adlS2 := rfl
@[simp] theorem State.raiseError_adlCnt : (s.raiseError cause op).adlCnt = s.adlCnt := rfl
@[simp] theorem State.raiseError_adlOpen : (s.raiseError cause op).adlOpen = s.adlOpen := rfl
@[simp] theorem State.raiseError_errIll : (s.raiseError cause op).errIll = (s.errIll || cause == .illegalCommand) := rfl
@[simp] theorem State.raiseError_errSeq : (s.raiseError cause op).errSeq = (s.errSeq || cause == .sequenceError) := rfl
@[simp] theorem State.raiseError_firstErrOp : (s.raiseError cause op).firstErrOp = if s.anyError then s.firstErrOp else op := rfl
@[simp] theorem State.raiseError_crcSel : (s.raiseError cause op).crcSel = s.crcSel := rfl
@[simp] theorem State.raiseError_adlSel : (s.raiseError cause op).adlSel = s.adlSel := rfl
@[simp] theorem State.raiseError_rsp : (s.raiseError cause op).rsp = s.rsp := rfl
@[simp] theorem State.raiseError_input : (s.raiseError cause op).input = s.input := rfl
@[simp] theorem State.raiseError_taken : (s.raiseError cause op).taken = s.taken := rfl
@[simp] theorem State.raiseError_adlRegs : (s.raiseError cause op).adlRegs = s.adlRegs := rfl

end

@[simp] theorem State.hardwareReset_crcR : s.hardwareReset.crcR = 0 := rfl
@[simp] theorem State.hardwareReset_crcOpen : s.hardwareReset.crcOpen = false := rfl
@[simp] theorem State.hardwareReset_adlS1 : s.hardwareReset.adlS1 = 0 := rfl
@[simp] theorem State.hardwareReset_adlS2 : s.hardwareReset.adlS2 = 0 := rfl
@[simp] theorem State.hardwareReset_adlCnt : s.hardwareReset.adlCnt = 0 := rfl
@[simp] theorem State.hardwareReset_adlOpen : s.hardwareReset.adlOpen = false := rfl
@[simp] theorem State.hardwareReset_errIll : s.hardwareReset.errIll = false := rfl
@[simp] theorem State.hardwareReset_errSeq : s.hardwareReset.errSeq = false := rfl
@[simp] theorem State.hardwareReset_firstErrOp : s.hardwareReset.firstErrOp = 0 := rfl
@[simp] theorem State.hardwareReset_crcSel : s.hardwareReset.crcSel = .unresolved := rfl
@[simp] theorem State.hardwareReset_adlSel : s.hardwareReset.adlSel = .unresolved := rfl
@[simp] theorem State.hardwareReset_rsp : s.hardwareReset.rsp = [] := rfl
@[simp] theorem State.hardwareReset_input : s.hardwareReset.input = s.input := rfl
@[simp] theorem State.hardwareReset_taken : s.hardwareReset.taken = s.taken := rfl

@[simp] theorem State.adlRegs_s1 : s.adlRegs.s1 = s.adlS1 := rfl
@[simp] theorem State.adlRegs_s2 : s.adlRegs.s2 = s.adlS2 := rfl
@[simp] theorem State.adlRegs_cnt : s.adlRegs.cnt = s.adlCnt := rfl

/-- Writing back what is read changes nothing. -/
@[simp] theorem State.setAdlRegs_self : s.setAdlRegs s.adlRegs = s := rfl

end Sys2Proof.Machine
end

