-- ==== Sys2Proof/Laws/Ops.lean ====
section
/-! SUPPORT. One lemma per shared operation that says once everything it can do: the sequence check, error entry, taking a
response, the beats of both engines, the choice of the host's next action, and `foldGroups`. -/

namespace Sys2Proof.Machine

/-- The sequence check has two outcomes and no third (R142, R145). -/
theorem sequenced_cases {ok : Bool} {op : Byte} {effect : State → State} {s t : State}
    (h : sequenced ok op effect s = .next t) :
    (ok = true ∧ t = effect s) ∨ (ok = false ∧ t = s.raiseError .sequenceError op) := by
  cases ok
  · exact .inr ⟨rfl, by simpa [sequenced] using h.symm⟩
  · exact .inl ⟨rfl, by simpa [sequenced] using h.symm⟩

@[simp] theorem sequenced_true (op : Byte) (effect : State → State) (s : State) :
    sequenced true op effect s = .next (effect s) := rfl

@[simp] theorem sequenced_false (op : Byte) (effect : State → State) (s : State) :
    sequenced false op effect s = .next (s.raiseError .sequenceError op) := rfl

/-- After an error some error flag is set (R145). -/
@[simp] theorem State.raiseError_anyError (s : State) (cause : ErrorCause) (op : Byte) :
    (s.raiseError cause op).anyError = true := by
  cases cause <;> simp [State.anyError]

/-- A take transfers the front word, or nothing when there is none (R19). -/
theorem State.takeResponse_cases (s : State) :
    (s.rsp = [] ∧ s.takeResponse = s) ∨
      ∃ v rest, s.rsp = v :: rest ∧ s.takeResponse = { s with rsp := rest, taken := s.taken ++ [v] } := by
  unfold State.takeResponse
  cases h : s.rsp with
  | nil => exact .inl ⟨rfl, rfl⟩
  | cons v rest => exact .inr ⟨v, rest, rfl, rfl⟩

/-- What the host can see in order is not changed by its taking a word. -/
theorem State.takeResponse_responses (s : State) : s.takeResponse.taken ++ s.takeResponse.rsp = s.taken ++ s.rsp := by
  rcases s.takeResponse_cases with ⟨-, h⟩ | ⟨v, rest, hv, h⟩
  · rw [h]
  · rw [h, hv]; simp

/-- A latch is resolved after a `BEGIN`, and a resolved one is as it was (R132). -/
theorem resolveSelection_cases (ks : List Kernel) (cap : List Capability) (x : Selection) :
    (x = .unresolved ∧ resolveSelection ks cap x = .resolved (select ks cap)) ∨
      (x ≠ .unresolved ∧ resolveSelection ks cap x = x) := by
  cases x
  · exact .inl ⟨rfl, rfl⟩
  · exact .inr ⟨by simp, rfl⟩

/-- A data command of the CRC engine writes `crc_r` alone, or raises (R72 to R79). -/
theorem crcBeat_cases {op : Byte} {bytes : List Byte} {s t : State} (h : crcBeat op bytes s = .next t) :
    (s.crcOpen = true ∧ t = s.setCrcR (crcFold s.crcR bytes)) ∨
      (s.crcOpen = false ∧ t = s.raiseError .sequenceError op) := sequenced_cases h

/-- A data command of the ADL engine writes the three ADL registers alone, or raises (R102 to R109). -/
theorem adlBeat_cases {op : Byte} {bytes : List Byte} {s t : State} (h : adlBeat op bytes s = .next t) :
    (s.adlOpen = true ∧ t = s.setAdlRegs (adlFoldBytes s.adlRegs bytes)) ∨
      (s.adlOpen = false ∧ t = s.raiseError .sequenceError op) := sequenced_cases h

@[simp] theorem crcFold_nil (c : Word) : crcFold c [] = c := rfl

@[simp] theorem crcFold_cons (c : Word) (b : Byte) (bs : List Byte) : crcFold c (b :: bs) = crcFold (crcByte c b) bs := rfl

theorem crcFold_append (c : Word) (a b : List Byte) : crcFold c (a ++ b) = crcFold (crcFold c a) b := by
  simp [crcFold, List.foldl_append]

@[simp] theorem adlFoldBytes_nil (r : AdlRegs) : adlFoldBytes r [] = r := rfl

@[simp] theorem adlFoldBytes_cons (r : AdlRegs) (b : Byte) (bs : List Byte) :
    adlFoldBytes r (b :: bs) = adlFoldBytes (adlFold r b) bs := rfl

theorem adlFoldBytes_append (r : AdlRegs) (a b : List Byte) :
    adlFoldBytes r (a ++ b) = adlFoldBytes (adlFoldBytes r a) b := by
  simp [adlFoldBytes, List.foldl_append]

/-- One byte of the ADL engine, both ways it can go (R101). -/
theorem adlFoldWith_cases (m : Nat) (r : AdlRegs) (b : Byte) :
    ((r.cnt + 1).toNat = m ∧
        adlFoldWith m r b = adlReduce ⟨r.s1 + zext32 b, r.s2 + (r.s1 + zext32 b), r.cnt + 1⟩) ∨
      ((r.cnt + 1).toNat ≠ m ∧ adlFoldWith m r b = ⟨r.s1 + zext32 b, r.s2 + (r.s1 + zext32 b), r.cnt + 1⟩) := by
  by_cases h : (r.cnt + 1).toNat = m
  · exact .inl ⟨h, if_pos h⟩
  · exact .inr ⟨h, if_neg h⟩

/-- A whole number of groups plus a remainder below `n`, and each group folded in order (R87, R115): what holds of every single
group holds of the fold. -/
theorem foldGroups_spec {σ : Type} {n : Nat} (hn : 0 < n) (f : σ → List Byte → σ) (g : σ → List Byte → σ)
    (hnil : ∀ c, g c [] = c) (happ : ∀ c a b, g c (a ++ b) = g (g c a) b)
    (hfg : ∀ c bytes, bytes.length = n → f c bytes = g c bytes) :
    ∀ fuel c bytes, bytes.length ≤ fuel →
      (foldGroups n f fuel c bytes).2.length < n ∧
        ∃ front, bytes = front ++ (foldGroups n f fuel c bytes).2 ∧ (foldGroups n f fuel c bytes).1 = g c front ∧
          front.length = n * (bytes.length / n) := by
  intro fuel
  induction fuel with
  | zero =>
    intro c bytes h
    have : bytes = [] := List.length_eq_zero_iff.mp (by omega)
    subst this
    exact ⟨by simpa [foldGroups] using hn, [], by simp [foldGroups, hnil]⟩
  | succ fuel ih =>
    intro c bytes h
    by_cases hle : n ≤ bytes.length
    · simp only [foldGroups, hle, if_true]
      obtain ⟨hlt, front, hfront, hval, hlen⟩ := ih (f c (bytes.take n)) (bytes.drop n) (by simp; omega)
      refine ⟨hlt, bytes.take n ++ front, ?_, ?_, ?_⟩
      · rw [List.append_assoc, ← hfront, List.take_append_drop]
      · rw [hval, happ, hfg _ _ (by simp [hle])]
      · rw [List.length_append, hlen, List.length_take, List.length_drop, Nat.min_eq_left hle]
        have : bytes.length / n = (bytes.length - n) / n + 1 := by
          rw [← Nat.add_div_right _ hn, Nat.sub_add_cancel hle]
        rw [this, Nat.mul_succ, Nat.add_comm]
    · simp only [foldGroups, hle, if_false]
      exact ⟨by omega, [], by simp, by simp [hnil], by rw [Nat.div_eq_of_lt (by omega)]; simp⟩

/-- What the step does, under a queue depth: it idles, is held, or carries out one action of the host, which is the first of
its list or, under a held command, the first that is no command. -/
theorem stepAt_cases {depth : Option Nat} {s t : State} (h : stepAt depth s = .next t) :
    (s.input = [] ∧ t = s) ∨
      ∃ e rest, nextEvent depth s = some (some (e, rest)) ∧ perform e (s.setInput rest) = .next t := by
  unfold stepAt at h
  cases hn : nextEvent depth s with
  | none => simp [hn] at h
  | some o =>
    cases o with
    | none =>
      refine .inl ⟨?_, by simpa [hn] using h.symm⟩
      unfold nextEvent at hn
      split at hn <;> simp_all
      split at hn
      · cases hf : firstNonCommand (PortEvent.command ‹CmdWord› :: ‹List PortEvent›) <;> simp_all
      · simp_all
    | some p => exact .inr ⟨p.1, p.2, rfl, by simpa [hn] using h⟩

/-- With the unbounded queue the host's first action is always the one carried out (R19, D8). -/
theorem nextEvent_unbounded (s : State) :
    nextEvent none s = some (match s.input with | [] => none | e :: rest => some (e, rest)) := by
  unfold nextEvent
  rcases s.input with _ | ⟨e, rest⟩
  · rfl
  · cases e <;> simp [queueFull]

end Sys2Proof.Machine
end

