-- ==== Sys2Proof/Laws/Exec.lean ====
section
/-! SUPPORT. What a command can do, said once over all 22 (`exec_cases`), what the command port can do with a word
(`acceptCommand_cases`), and the step as the host's first action carried out (`step_of_input`). Proofs cite these and unfold no
meaning. -/

namespace Sys2Proof.Machine

/-- Every command does one of these and nothing else: the error entry, where its engine's open flag says so, or the effect of
its rule (R71 to R80, R100 to R110, R130, R134, R142). -/
theorem exec_cases (i : Instr) (s : State) :
    (((isCrcCommand i = true ∧ s.crcOpen = (opcodeOf i == 0x10)) ∨ (isAdlCommand i = true ∧ s.adlOpen = (opcodeOf i == 0x20))) ∧
      exec i s = .next (s.raiseError .sequenceError (opcodeOf i))) ∨
    (i = .sysNop ∧ exec i s = .next s) ∨
    (i = .sysRdstat ∧ exec i s = .next (s.respond (status s))) ∨
    (∃ v, i = .crcBegin v ∧ s.crcOpen = false ∧
      exec i s = .next (((s.setCrcSel (resolveSelection Config.kernelsCrc Config.cap s.crcSel)).setCrcR (~~~v)).setCrcOpen true)) ∨
    (∃ bytes, crcBeatBytes i = some bytes ∧ s.crcOpen = true ∧ exec i s = .next (s.setCrcR (crcFold s.crcR bytes))) ∨
    (i = .crcEnd ∧ s.crcOpen = true ∧ exec i s = .next ((s.respond (~~~s.crcR)).setCrcOpen false)) ∨
    (∃ v, i = .adlBegin v ∧ s.adlOpen = false ∧
      exec i s = .next (((s.setAdlSel (resolveSelection Config.kernelsAdl Config.cap s.adlSel)).setAdlRegs (adlLoad v)).setAdlOpen true)) ∨
    (∃ bytes, adlBeatBytes i = some bytes ∧ s.adlOpen = true ∧ exec i s = .next (s.setAdlRegs (adlFoldBytes s.adlRegs bytes))) ∨
    (i = .adlEnd ∧ s.adlOpen = true ∧
      exec i s = .next (((s.setAdlRegs (adlFinish s.adlRegs)).respond (adlResponse s.adlRegs)).setAdlOpen false)) := by
  cases hc : s.crcOpen <;> cases ha : s.adlOpen <;> cases i <;>
    simp [exec, execSysNop, execSysRdstat, execCrcBegin, execCrcEnd, execAdlBegin, execAdlEnd, crcBeat, adlBeat, hc, ha,
      opcodeOf, opUnit, isCrcCommand, isAdlCommand, crcBeatBytes, adlBeatBytes,
      execCrcD1, execCrcD2, execCrcD3, execCrcD4, execCrcD5, execCrcD6, execCrcD7, execCrcD8,
      execAdlD1, execAdlD2, execAdlD3, execAdlD4, execAdlD5, execAdlD6, execAdlD7, execAdlD8]

/-- A word at the command port is executed, or raises `IllegalCommand` (R57, R60). -/
theorem acceptCommand_cases (w : CmdWord) (s : State) :
    (∃ i, decode w = .command i ∧ acceptCommand w s = exec i s) ∨
      (∃ op, decode w = .reserved op ∧ acceptCommand w s = .next (s.raiseError .illegalCommand op)) := by
  unfold acceptCommand
  cases decode w with
  | command i => exact .inl ⟨i, rfl, rfl⟩
  | reserved op => exact .inr ⟨op, rfl, rfl⟩

/-- The step carries out the host's first action (R16, R19). -/
theorem step_of_input {s : State} {e : PortEvent} {rest : List PortEvent} (h : s.input = e :: rest) :
    step s = perform e (s.setInput rest) := by
  simp [step, stepAt, Config.rspDepth, nextEvent_unbounded, h]

/-- With nothing to do the step changes nothing (log entry 5). -/
theorem step_of_no_input {s : State} (h : s.input = []) : step s = .next s := by
  simp [step, stepAt, Config.rspDepth, nextEvent_unbounded, h]

@[simp] theorem runCommands_nil (s : State) : runCommands [] s = .next s := rfl

/-- A run goes on from where its first command led. -/
theorem runCommands_cons {i : Instr} {s t : State} (h : exec i s = .next t) (is : List Instr) :
    runCommands (i :: is) s = runCommands is t := by
  simp [runCommands, h]

end Sys2Proof.Machine
end

