-- ==== Sys2Proof/Laws/PerInstr.lean ====
section
/-! SUPPORT. What holds of every command as syntax, one lemma per constructor. Family `EncodedFields`: the two fields of an
encoded command are its opcode and its data, and the opcode is not reserved (spec/30_encoding.md R51, R56, R57). -/

namespace Sys2Proof.Laws.EncodedFields

open Machine

/-- The two fields of the encoded command, and its opcode is one of the 22. -/
def Statement (i : Instr) : Prop :=
  opField (encode i) = opcodeOf i ∧ dataField (encode i) = dataOf i ∧ reservedOpcode (opcodeOf i) = false

/-- The two field clauses, the same for every command. -/
theorem of_opcode (i : Instr) (h : reservedOpcode (opcodeOf i) = false) : Statement i :=
  ⟨opField_cmdWord _ _, dataField_cmdWord _ _, h⟩

theorem sysNop : Statement .sysNop := of_opcode _ (by decide)

theorem sysRdstat : Statement .sysRdstat := of_opcode _ (by decide)

theorem crcBegin (v : Word) : Statement (.crcBegin v) := of_opcode _ rfl

theorem crcD1 (b0 : Byte) : Statement (.crcD1 b0) := of_opcode _ rfl

theorem crcD2 (b0 b1 : Byte) : Statement (.crcD2 b0 b1) := of_opcode _ rfl

theorem crcD3 (b0 b1 b2 : Byte) : Statement (.crcD3 b0 b1 b2) := of_opcode _ rfl

theorem crcD4 (b0 b1 b2 b3 : Byte) : Statement (.crcD4 b0 b1 b2 b3) := of_opcode _ rfl

theorem crcD5 (b0 b1 b2 b3 b4 : Byte) : Statement (.crcD5 b0 b1 b2 b3 b4) := of_opcode _ rfl

theorem crcD6 (b0 b1 b2 b3 b4 b5 : Byte) : Statement (.crcD6 b0 b1 b2 b3 b4 b5) := of_opcode _ rfl

theorem crcD7 (b0 b1 b2 b3 b4 b5 b6 : Byte) : Statement (.crcD7 b0 b1 b2 b3 b4 b5 b6) := of_opcode _ rfl

theorem crcD8 (b0 b1 b2 b3 b4 b5 b6 b7 : Byte) : Statement (.crcD8 b0 b1 b2 b3 b4 b5 b6 b7) := of_opcode _ rfl

theorem crcEnd : Statement .crcEnd := of_opcode _ (by decide)

theorem adlBegin (v : Word) : Statement (.adlBegin v) := of_opcode _ rfl

theorem adlD1 (b0 : Byte) : Statement (.adlD1 b0) := of_opcode _ rfl

theorem adlD2 (b0 b1 : Byte) : Statement (.adlD2 b0 b1) := of_opcode _ rfl

theorem adlD3 (b0 b1 b2 : Byte) : Statement (.adlD3 b0 b1 b2) := of_opcode _ rfl

theorem adlD4 (b0 b1 b2 b3 : Byte) : Statement (.adlD4 b0 b1 b2 b3) := of_opcode _ rfl

theorem adlD5 (b0 b1 b2 b3 b4 : Byte) : Statement (.adlD5 b0 b1 b2 b3 b4) := of_opcode _ rfl

theorem adlD6 (b0 b1 b2 b3 b4 b5 : Byte) : Statement (.adlD6 b0 b1 b2 b3 b4 b5) := of_opcode _ rfl

theorem adlD7 (b0 b1 b2 b3 b4 b5 b6 : Byte) : Statement (.adlD7 b0 b1 b2 b3 b4 b5 b6) := of_opcode _ rfl

theorem adlD8 (b0 b1 b2 b3 b4 b5 b6 b7 : Byte) : Statement (.adlD8 b0 b1 b2 b3 b4 b5 b6 b7) := of_opcode _ rfl

theorem adlEnd : Statement .adlEnd := of_opcode _ (by decide)

end Sys2Proof.Laws.EncodedFields
end

