-- ==== Sys2Proof/Tests/Slice0.lean ====
section
/-! SUPPORT. The model's own tests. Expected results come from spec/95_test_vectors.md (its vectors C, B, E, V, A and its table of
section 2) and from the examples of the command rules; the words are written out from spec/30_encoding.md. After them the
witnesses: for every statement with hypotheses, concrete values that meet them. -/

open Sys2Proof Sys2Proof.Machine Sys2Proof.Stated

namespace Sys2Proof.Tests

/-- The CRC engine open with this register. -/
def crcOpenWith (r : Word) : State := { State.reset with crcOpen := true, crcR := r, crcSel := .resolved .reference }

/-- The ADL engine open with these registers. -/
def adlOpenWith (s1 s2 : Word) (cnt : BitVec 13) : State :=
  { State.reset with adlOpen := true, adlS1 := s1, adlS2 := s2, adlCnt := cnt, adlSel := .resolved .reference }

/-- One step of the machine over one command word, seen through `f`; `none` where the step stops. -/
def after {α : Type} (s : State) (w : CmdWord) (f : State → α) : Option α :=
  match step (offerFirst w s) with
  | .next t => some (f t)
  | .fault _ => none
  | .refused _ => none

/-- What the ADL vectors list. -/
def adlView (s : State) : Nat × Nat × Nat := (s.adlS1.toNat, s.adlS2.toNat, s.adlCnt.toNat)

/-! ### Decoding: a word of every command, from R51 and R56 -/

theorem test_decode_sysNop :
    decode 0x00FFFFFFFFFFFFFFFF#72 = .command .sysNop := by decide

theorem test_decode_sysRdstat :
    decode 0x010000000000000000#72 = .command .sysRdstat := by decide

theorem test_decode_crcBegin :
    decode 0x10FFFFFFFFCBF43926#72 = .command (.crcBegin 0xCBF43926) := by decide

theorem test_decode_crcD1 :
    decode 0x110000000000000061#72 = .command (.crcD1 0x61) := by decide

theorem test_decode_crcD2 :
    decode 0x120000000000006261#72 = .command (.crcD2 0x61 0x62) := by decide

theorem test_decode_crcD3 :
    decode 0x130000000000636261#72 = .command (.crcD3 0x61 0x62 0x63) := by decide

theorem test_decode_crcD4 :
    decode 0x140000000064636261#72 = .command (.crcD4 0x61 0x62 0x63 0x64) := by decide

theorem test_decode_crcD5 :
    decode 0x150000006564636261#72 = .command (.crcD5 0x61 0x62 0x63 0x64 0x65) := by decide

theorem test_decode_crcD6 :
    decode 0x160000666564636261#72 = .command (.crcD6 0x61 0x62 0x63 0x64 0x65 0x66) := by decide

theorem test_decode_crcD7 :
    decode 0x170067666564636261#72 = .command (.crcD7 0x61 0x62 0x63 0x64 0x65 0x66 0x67) := by decide

theorem test_decode_crcD8 :
    decode 0x186867666564636261#72 = .command (.crcD8 0x61 0x62 0x63 0x64 0x65 0x66 0x67 0x68) := by decide

theorem test_decode_crcEnd :
    decode 0x190000000000000000#72 = .command .crcEnd := by decide

theorem test_decode_adlBegin :
    decode 0x20FFFFFFFFCBF43926#72 = .command (.adlBegin 0xCBF43926) := by decide

theorem test_decode_adlD1 :
    decode 0x210000000000000061#72 = .command (.adlD1 0x61) := by decide

theorem test_decode_adlD2 :
    decode 0x220000000000006261#72 = .command (.adlD2 0x61 0x62) := by decide

theorem test_decode_adlD3 :
    decode 0x230000000000636261#72 = .command (.adlD3 0x61 0x62 0x63) := by decide

theorem test_decode_adlD4 :
    decode 0x240000000064636261#72 = .command (.adlD4 0x61 0x62 0x63 0x64) := by decide

theorem test_decode_adlD5 :
    decode 0x250000006564636261#72 = .command (.adlD5 0x61 0x62 0x63 0x64 0x65) := by decide

theorem test_decode_adlD6 :
    decode 0x260000666564636261#72 = .command (.adlD6 0x61 0x62 0x63 0x64 0x65 0x66) := by decide

theorem test_decode_adlD7 :
    decode 0x270067666564636261#72 = .command (.adlD7 0x61 0x62 0x63 0x64 0x65 0x66 0x67) := by decide

theorem test_decode_adlD8 :
    decode 0x286867666564636261#72 = .command (.adlD8 0x61 0x62 0x63 0x64 0x65 0x66 0x67 0x68) := by decide

theorem test_decode_adlEnd :
    decode 0x290000000000000000#72 = .command .adlEnd := by decide

theorem test_decode_reserved_1A :
    decode 0x1A0000000000000000#72 = .reserved 0x1A := by decide

theorem test_encode_example_of_R61 :
    encode (.crcD4 0x31 0x32 0x33 0x34) = 0x140000000034333231#72 := by decide

theorem test_decodeTableWord_row :
    decodeTableWord 72 0x250000006564636261 = some (.adlD5 0x61 0x62 0x63 0x64 0x65) := by decide

theorem test_decodeTableWord_reserved :
    decodeTableWord 72 0x300000000000000000 = none := by decide

/-! ### Commands: one step each, spec/95_test_vectors.md sections 4 to 6 -/

theorem test_C3 :
    after State.reset 0x1000000000CBF43926#72 (fun t => (t.crcR, t.crcOpen, t.rsp)) = some (0x340BC6D9, true, []) := by decide

theorem test_C4 :
    after State.reset 0x10FFFFFFFF00000000#72 (fun t => (t.crcR, t.crcOpen, t.rsp)) = some (0xFFFFFFFF, true, []) := by decide

theorem test_C6_C7 :
    after (crcOpenWith 0xFFFFFFFF) 0x11FFFFFFFFFFFFFF61#72 (fun t => (t.crcR, t.crcOpen, t.rsp)) = some (0x174841BC, true, []) ∧
    after (crcOpenWith 0) 0x110000000000000000#72 (·.crcR) = some 0 := by decide

theorem test_C8 :
    after (crcOpenWith 0xFFFFFFFF) 0x120000000000006261#72 (fun t => (t.crcR, t.crcOpen, t.rsp)) = some (0x617CB792, true, []) := by decide

theorem test_C9 :
    after (crcOpenWith 0xFFFFFFFF) 0x130000000000636261#72 (fun t => (t.crcR, t.crcOpen, t.rsp)) = some (0xCADBBE3D, true, []) := by decide

theorem test_C10 :
    after (crcOpenWith 0xFFFFFFFF) 0x140000000064636261#72 (fun t => (t.crcR, t.crcOpen, t.rsp)) = some (0x127D32EE, true, []) := by decide

theorem test_C11 :
    after (crcOpenWith 0xFFFFFFFF) 0x150000006564636261#72 (fun t => (t.crcR, t.crcOpen, t.rsp)) = some (0x7A78279A, true, []) := by decide

theorem test_C12 :
    after (crcOpenWith 0xFFFFFFFF) 0x160000666564636261#72 (fun t => (t.crcR, t.crcOpen, t.rsp)) = some (0xB471C610, true, []) := by decide

theorem test_C13 :
    after (crcOpenWith 0xFFFFFFFF) 0x170067666564636261#72 (fun t => (t.crcR, t.crcOpen, t.rsp)) = some (0xCED59559, true, []) := by decide

theorem test_C14 :
    after (crcOpenWith 0xFFFFFFFF) 0x186867666564636261#72 (fun t => (t.crcR, t.crcOpen, t.rsp)) = some (0x5110D5AF, true, []) := by decide

theorem test_C15 :
    after (crcOpenWith 0xFFFFFFFF) 0x183837363534333231#72 (fun t => (t.crcR, t.crcOpen, t.rsp)) = some (0x651F2550, true, []) := by decide

theorem test_C17 :
    after (crcOpenWith 0x340BC6D9) 0x190000000000000000#72 (fun t => (t.rsp, t.crcOpen, t.crcR)) = some ([0xCBF43926], false, 0x340BC6D9) := by decide

theorem test_B2 :
    after State.reset 0x2000000000FFFFFFFF#72 (fun t => (adlView t, t.adlOpen, t.rsp)) = some ((65535, 65535, 0), true, []) := by decide

theorem test_B3 :
    after State.reset 0x20ABCDEF0100000001#72 (fun t => (adlView t, t.adlOpen, t.rsp)) = some ((1, 0, 0), true, []) := by decide

theorem test_B13_B4 :
    after (adlOpenWith 1 0 0) 0x210000000000000000#72 (fun t => (adlView t, t.adlOpen, t.rsp)) = some ((1, 1, 1), true, []) ∧
    after (adlOpenWith 1 0 0) 0x210000000000000061#72 (fun t => (adlView t, t.adlOpen, t.rsp)) = some ((98, 98, 1), true, []) := by decide

theorem test_B5 :
    after (adlOpenWith 1 0 0) 0x220000000000006261#72 (fun t => (adlView t, t.adlOpen, t.rsp)) = some ((196, 294, 2), true, []) := by decide

theorem test_B7 :
    after (adlOpenWith 1 0 0) 0x23FFFFFFFFFF636261#72 (fun t => (adlView t, t.adlOpen, t.rsp)) = some ((295, 589, 3), true, []) := by decide

theorem test_B8 :
    after (adlOpenWith 1 0 0) 0x240000000064636261#72 (fun t => (adlView t, t.adlOpen, t.rsp)) = some ((395, 984, 4), true, []) := by decide

theorem test_B9 :
    after (adlOpenWith 1 0 0) 0x250000006564636261#72 (fun t => (adlView t, t.adlOpen, t.rsp)) = some ((496, 1480, 5), true, []) := by decide

theorem test_B10 :
    after (adlOpenWith 1 0 0) 0x260000666564636261#72 (fun t => (adlView t, t.adlOpen, t.rsp)) = some ((598, 2078, 6), true, []) := by decide

theorem test_B11 :
    after (adlOpenWith 1 0 0) 0x270067666564636261#72 (fun t => (adlView t, t.adlOpen, t.rsp)) = some ((701, 2779, 7), true, []) := by decide

theorem test_B12 :
    after (adlOpenWith 1 0 0) 0x286867666564636261#72 (fun t => (adlView t, t.adlOpen, t.rsp)) = some ((805, 3584, 8), true, []) := by decide

theorem test_B14_chunk_ends_inside_beat :
    after (adlOpenWith 1415251 3928031925 5550) 0x240000000004030201#72 adlView = some (39320, 139714, 2) := by decide

theorem test_P5_chunk_ends_on_beat :
    after (adlOpenWith 1413721 3919544244 5544) 0x28FFFFFFFFFFFFFFFF#72 adlView = some (39820, 61839, 0) := by decide

theorem test_B15_B16_no_reduction_on_empty :
    after (adlOpenWith 295 589 3) 0x290000000000000000#72 (fun t => (adlView t, t.adlOpen, t.rsp)) = some ((295, 589, 0), false, [0x024D0127]) ∧
    after (adlOpenWith 65535 65535 0) 0x290000000000000000#72 (fun t => (adlView t, t.rsp)) = some ((65535, 65535, 0), [0xFFFFFFFF]) := by decide

/-- A state after `CRC.BEGIN 0` (E12 to E14). -/
def afterCrcBegin0 : State := crcOpenWith 0xFFFFFFFF

theorem test_E2 :
    after (State.reset) 0x00FFFFFFFFFFFFFFFF#72 (fun t => (status t, t.rsp)) = some (0x00000000, []) := by decide

theorem test_E3_E14_E15_E16 :
    after (State.reset) 0x010000000000000000#72 (fun t => t.rsp) = some [0x00000000] ∧
    after (afterCrcBegin0) 0x010000000000000000#72 (fun t => t.rsp) = some [0x00000005] ∧
    after { State.reset with crcSel := .resolved .reference } 0x010000000000000000#72 (fun t => t.rsp) = some [0x00000004] ∧
    after { State.reset with errIll := true, errSeq := true, firstErrOp := 0x11 } 0x010000000000000000#72 (fun t => t.rsp) = some [0x00001130] := by decide

theorem test_E4 :
    after (State.reset) 0x110000000000000061#72 (fun t => (status t, t.crcR)) = some (0x00001120, 0) := by decide

theorem test_E5 :
    after (State.reset) 0x190000000000000000#72 (fun t => (status t, t.rsp)) = some (0x00001920, []) := by decide

theorem test_E6 :
    after (State.reset) 0x290000000000000000#72 (fun t => (status t, t.rsp)) = some (0x00002920, []) := by decide

theorem test_E7_to_E11_reserved :
    after (State.reset) 0x020000000000000000#72 (fun t => (status t, t.rsp)) = some (0x00000210, []) ∧
    after (State.reset) 0x1A0000000000000000#72 (fun t => status t) = some 0x00001A10 ∧
    after (State.reset) 0x2A0000000000000000#72 (fun t => status t) = some 0x00002A10 ∧
    after (State.reset) 0x300000000000000000#72 (fun t => status t) = some 0x00003010 ∧
    after (State.reset) 0xFF0000000000000000#72 (fun t => status t) = some 0x0000FF10 := by decide

theorem test_E12 :
    after (afterCrcBegin0) 0x100000000000000005#72 (fun t => (status t, t.crcR)) = some (0x00001025, 0xFFFFFFFF) := by decide

theorem test_E13 :
    after (afterCrcBegin0) 0x210000000000000061#72 (fun t => (status t, t.crcR)) = some (0x00002125, 0xFFFFFFFF) := by decide

/-! ### Tables (section 2) and functions (sections 1 and 3) -/

/-- Entries `8*r` to `8*r+63` of a table as numbers. -/
def entries (table : Byte → Word) (first n : Nat) : List Nat := (List.range n).map fun i => (table (BitVec.ofNat 8 (first + i))).toNat

theorem test_TAB1_entries_0 :
    entries tab1 0 64 =
      [0x00000000, 0x77073096, 0xEE0E612C, 0x990951BA, 0x076DC419, 0x706AF48F, 0xE963A535, 0x9E6495A3] ++
      [0x0EDB8832, 0x79DCB8A4, 0xE0D5E91E, 0x97D2D988, 0x09B64C2B, 0x7EB17CBD, 0xE7B82D07, 0x90BF1D91] ++
      [0x1DB71064, 0x6AB020F2, 0xF3B97148, 0x84BE41DE, 0x1ADAD47D, 0x6DDDE4EB, 0xF4D4B551, 0x83D385C7] ++
      [0x136C9856, 0x646BA8C0, 0xFD62F97A, 0x8A65C9EC, 0x14015C4F, 0x63066CD9, 0xFA0F3D63, 0x8D080DF5] ++
      [0x3B6E20C8, 0x4C69105E, 0xD56041E4, 0xA2677172, 0x3C03E4D1, 0x4B04D447, 0xD20D85FD, 0xA50AB56B] ++
      [0x35B5A8FA, 0x42B2986C, 0xDBBBC9D6, 0xACBCF940, 0x32D86CE3, 0x45DF5C75, 0xDCD60DCF, 0xABD13D59] ++
      [0x26D930AC, 0x51DE003A, 0xC8D75180, 0xBFD06116, 0x21B4F4B5, 0x56B3C423, 0xCFBA9599, 0xB8BDA50F] ++
      [0x2802B89E, 0x5F058808, 0xC60CD9B2, 0xB10BE924, 0x2F6F7C87, 0x58684C11, 0xC1611DAB, 0xB6662D3D] := by decide

theorem test_TAB1_entries_64 :
    entries tab1 64 64 =
      [0x76DC4190, 0x01DB7106, 0x98D220BC, 0xEFD5102A, 0x71B18589, 0x06B6B51F, 0x9FBFE4A5, 0xE8B8D433] ++
      [0x7807C9A2, 0x0F00F934, 0x9609A88E, 0xE10E9818, 0x7F6A0DBB, 0x086D3D2D, 0x91646C97, 0xE6635C01] ++
      [0x6B6B51F4, 0x1C6C6162, 0x856530D8, 0xF262004E, 0x6C0695ED, 0x1B01A57B, 0x8208F4C1, 0xF50FC457] ++
      [0x65B0D9C6, 0x12B7E950, 0x8BBEB8EA, 0xFCB9887C, 0x62DD1DDF, 0x15DA2D49, 0x8CD37CF3, 0xFBD44C65] ++
      [0x4DB26158, 0x3AB551CE, 0xA3BC0074, 0xD4BB30E2, 0x4ADFA541, 0x3DD895D7, 0xA4D1C46D, 0xD3D6F4FB] ++
      [0x4369E96A, 0x346ED9FC, 0xAD678846, 0xDA60B8D0, 0x44042D73, 0x33031DE5, 0xAA0A4C5F, 0xDD0D7CC9] ++
      [0x5005713C, 0x270241AA, 0xBE0B1010, 0xC90C2086, 0x5768B525, 0x206F85B3, 0xB966D409, 0xCE61E49F] ++
      [0x5EDEF90E, 0x29D9C998, 0xB0D09822, 0xC7D7A8B4, 0x59B33D17, 0x2EB40D81, 0xB7BD5C3B, 0xC0BA6CAD] := by decide

theorem test_TAB1_entries_128 :
    entries tab1 128 64 =
      [0xEDB88320, 0x9ABFB3B6, 0x03B6E20C, 0x74B1D29A, 0xEAD54739, 0x9DD277AF, 0x04DB2615, 0x73DC1683] ++
      [0xE3630B12, 0x94643B84, 0x0D6D6A3E, 0x7A6A5AA8, 0xE40ECF0B, 0x9309FF9D, 0x0A00AE27, 0x7D079EB1] ++
      [0xF00F9344, 0x8708A3D2, 0x1E01F268, 0x6906C2FE, 0xF762575D, 0x806567CB, 0x196C3671, 0x6E6B06E7] ++
      [0xFED41B76, 0x89D32BE0, 0x10DA7A5A, 0x67DD4ACC, 0xF9B9DF6F, 0x8EBEEFF9, 0x17B7BE43, 0x60B08ED5] ++
      [0xD6D6A3E8, 0xA1D1937E, 0x38D8C2C4, 0x4FDFF252, 0xD1BB67F1, 0xA6BC5767, 0x3FB506DD, 0x48B2364B] ++
      [0xD80D2BDA, 0xAF0A1B4C, 0x36034AF6, 0x41047A60, 0xDF60EFC3, 0xA867DF55, 0x316E8EEF, 0x4669BE79] ++
      [0xCB61B38C, 0xBC66831A, 0x256FD2A0, 0x5268E236, 0xCC0C7795, 0xBB0B4703, 0x220216B9, 0x5505262F] ++
      [0xC5BA3BBE, 0xB2BD0B28, 0x2BB45A92, 0x5CB36A04, 0xC2D7FFA7, 0xB5D0CF31, 0x2CD99E8B, 0x5BDEAE1D] := by decide

theorem test_TAB1_entries_192 :
    entries tab1 192 64 =
      [0x9B64C2B0, 0xEC63F226, 0x756AA39C, 0x026D930A, 0x9C0906A9, 0xEB0E363F, 0x72076785, 0x05005713] ++
      [0x95BF4A82, 0xE2B87A14, 0x7BB12BAE, 0x0CB61B38, 0x92D28E9B, 0xE5D5BE0D, 0x7CDCEFB7, 0x0BDBDF21] ++
      [0x86D3D2D4, 0xF1D4E242, 0x68DDB3F8, 0x1FDA836E, 0x81BE16CD, 0xF6B9265B, 0x6FB077E1, 0x18B74777] ++
      [0x88085AE6, 0xFF0F6A70, 0x66063BCA, 0x11010B5C, 0x8F659EFF, 0xF862AE69, 0x616BFFD3, 0x166CCF45] ++
      [0xA00AE278, 0xD70DD2EE, 0x4E048354, 0x3903B3C2, 0xA7672661, 0xD06016F7, 0x4969474D, 0x3E6E77DB] ++
      [0xAED16A4A, 0xD9D65ADC, 0x40DF0B66, 0x37D83BF0, 0xA9BCAE53, 0xDEBB9EC5, 0x47B2CF7F, 0x30B5FFE9] ++
      [0xBDBDF21C, 0xCABAC28A, 0x53B39330, 0x24B4A3A6, 0xBAD03605, 0xCDD70693, 0x54DE5729, 0x23D967BF] ++
      [0xB3667A2E, 0xC4614AB8, 0x5D681B02, 0x2A6F2B94, 0xB40BBE37, 0xC30C8EA1, 0x5A05DF1B, 0x2D02EF8D] := by decide

theorem test_TAB8_check_values :
    ((List.finRange 8).map fun k => [tab8 k 0x00, tab8 k 0x01, tab8 k 0x80, tab8 k 0xFF]) =
      [[0, 0xCCAA009E, 0x533B85DA, 0x264B06E6],
       [0, 0xA6770BB4, 0x8816EAF2, 0x92364A30],
       [0, 0xCB5CD3A5, 0x1EB014D8, 0xE4C4ABCC],
       [0, 0x3D6029B0, 0xB1E6B092, 0xCA64C78C],
       [0, 0xB8BC6765, 0xED59B63B, 0xDE0506F1],
       [0, 0x01C26A37, 0xE1351B80, 0xBE9834ED],
       [0, 0x191B3141, 0x3B83984B, 0x9324FD72],
       [0, 0x77073096, 0xEDB88320, 0x2D02EF8D]] := by decide

theorem test_word8_example_of_R83 :
    word8 0xFFFFFFFF 0x3837363534333231 = 0x651F2550 := by decide

theorem test_word4_example_of_R85 :
    word4 0xFFFFFFFF 0x64636261 = 0x127D32EE := by decide

theorem test_tails_examples_of_R86 :
    (tail1 0xFFFFFFFF 0x61, tail2 0xFFFFFFFF 0x61 0x62, tail3 0xFFFFFFFF 0x61 0x62 0x63) = (0x174841BC, 0x617CB792, 0xCADBBE3D) := by decide

theorem test_V10_reference :
    crc32Reference 0 [0x31, 0x32, 0x33, 0x34, 0x35, 0x36, 0x37, 0x38, 0x39] = some 0xCBF43926 := by decide

theorem test_V20 :
    crc32 0xDEADBEEF [0x61, 0x62, 0x63] = 0x45BB8AE2 := by decide

set_option maxRecDepth 8000 in
theorem test_V33_reference_all_tiers :
    crc32Reference 0 ((List.range 71).map fun i => BitVec.ofNat 8 (7 * i + 3)) = some 0xF7848D88 := by decide

theorem test_A18 :
    adler32 0x12345678 [0x61, 0x62, 0x63] = 0x17F5579E := by decide

theorem test_A22_reference_all_groups :
    adler32Reference 1 (List.replicate 23 0x41) = 0x462B05D8 := by decide

/-! ### Well-formedness: each check refuses an ill-formed term -/

theorem test_wf_reserved_opcode :
    canonicalWord 0x300000000000000000#72 = false := by decide

theorem test_wf_ignored_bits :
    canonicalWord 0x130000000034636261#72 = false ∧ canonicalWord 0x130000000000636261#72 = true := by decide

theorem test_wf_operand_missing :
    asmOperandWf 0x14 .absent = false := by decide

theorem test_wf_operand_not_taken :
    asmOperandWf 0x19 (.number 0) = false := by decide

theorem test_wf_number_too_wide :
    asmOperandWf 0x18 (.number (2 ^ 64)) = false ∧ asmOperandWf 0x13 (.number 0x34636261) = false := by decide

theorem test_wf_string_length :
    asmOperandWf 0x14 (.text [0x31, 0x32, 0x33]) = false ∧ asmOperandWf 0x14 (.text [0x31, 0x32, 0x33, 0x34]) = true := by decide

theorem test_wf_string_for_begin :
    asmOperandWf 0x10 (.text [0x31, 0x32, 0x33, 0x34]) = false := by decide

theorem test_wf_statement_reserved :
    asmStatementWf (.command 0x02 .absent) = false := by decide

theorem test_wf_pseudo_state :
    asmStatementWf (.crc32 (2 ^ 32) []) = false ∧ asmStatementWf (.adler32 (2 ^ 32) []) = false := by decide

theorem test_wf_chunk_bound :
    chunkBoundWf Config.adlerChunkMax = true ∧ chunkBoundWf 5553 = false ∧ chunkBoundWf 0 = false := by decide

/-! ### Assembler text (R61, section 7) -/

theorem test_asm_two_forms_of_R61 :
    assembleLine "CRC.D4 0x34333231".toList = some [0x140000000034333231#72] ∧
    assembleLine "CRC.D4 \"1234\" ; the same".toList = some [0x140000000034333231#72] := by decide

theorem test_asm_P1 :
    assembleLines ["CRC32 CRC32_INIT, \"123456789\"".toList, "SYS.RDSTAT".toList] =
    some [0x100000000000000000#72, 0x183837363534333231#72, 0x110000000000000039#72, 0x190000000000000000#72, 0x010000000000000000#72] := by decide

theorem test_asm_P2 :
    assembleLine "ADLER32 ADLER32_INIT, \"Wikipedia\"".toList =
    some [0x200000000000000001#72, 0x2869646570696B6957#72, 0x210000000000000061#72, 0x290000000000000000#72] := by decide

theorem test_asm_constants_of_R64 :
    assembleLine "CRC.BEGIN CRC32_INIT".toList = some [0x100000000000000000#72] ∧
    assembleLine "ADL.BEGIN ADLER32_INIT ; s1=1, s2=0".toList = some [0x200000000000000001#72] := by decide

theorem test_asm_hex_digits :
    readNumber "0x09aFAf".toList = some 0x09AFAF ∧ readNumber "0x".toList = none ∧ readNumber "0xG".toList = none := by decide

theorem test_asm_word_text :
    wordText 0x140000000034333231#72 = "140000000034333231".toList := by decide

theorem test_asm_rejected :
    assembleLine "CRC.D9 0x00".toList = none ∧ assembleLine "CRC.D2 0x636261".toList = none := by decide

/-! ### The ports -/

theorem test_take_moves_front_word :
    (match step { State.reset with input := [.take], rsp := [7, 8] } with | .next t => some (t.rsp, t.taken) | _ => none) = some ([8], [7]) := by decide

theorem test_reset_loses_untaken_words :
    (match step { crcOpenWith 5 with input := [.reset, .take], rsp := [7], errSeq := true } with
      | .next t => some (t.crcOpen, t.rsp, t.input, t.errSeq) | _ => none) = some (false, [], [.take], false) := by decide

theorem test_full_queue_lets_take_pass :
    (match stepAt (some 1) { State.reset with input := [.command 0, .take], rsp := [7] } with
      | .next t => some (t.rsp, t.taken, t.input) | _ => none) = some ([], [7], [.command 0]) := by decide

/-! ### Witnesses: values that meet the hypotheses of each statement, one clause after another -/

theorem witness_CrcBeginOpensEngine :
    State.reset.crcOpen = false ∧
    (crcOpenWith 0xFFFFFFFF).crcOpen = true :=
  by decide

theorem witness_CrcBeatsFoldTheirBytes :
    (crcOpenWith 0xFFFFFFFF).crcOpen = true ∧
    State.reset.crcOpen = false :=
  by decide

theorem witness_CrcEndRespondsComplement :
    (crcOpenWith 0xFFFFFFFF).crcOpen = true ∧
    State.reset.crcOpen = false :=
  by decide

theorem witness_AdlBeginLoadsHalves :
    State.reset.adlOpen = false ∧
    (adlOpenWith 1 0 0).adlOpen = true :=
  by decide

theorem witness_AdlBeatsFoldTheirBytes :
    (adlOpenWith 1481040 4293292200 5551).adlOpen = true ∧
    State.reset.adlOpen = false :=
  by decide

theorem witness_AdlEndReducesAndResponds :
    ((adlOpenWith 295 589 3).adlOpen = true ∧ (adlOpenWith 295 589 3).adlCnt ≠ 0) ∧
    ((adlOpenWith 65535 65535 0).adlOpen = true ∧ (adlOpenWith 65535 65535 0).adlCnt = 0) ∧
    State.reset.adlOpen = false ∧
    AdlRegs.Bounded ⟨1481040, 4293292200, 5551⟩ :=
  ⟨by decide, by decide, by decide, by unfold AdlRegs.Bounded; decide⟩

theorem witness_ReservedOpcodeRaisesIllegalCommand :
    (0x02 ≤ (opField 0x020000000000000000#72).toNat ∧ (opField 0x0F0000000000000000#72).toNat ≤ 0x0F) ∧
    (0x1A ≤ (opField 0x1A0000000000000000#72).toNat ∧ (opField 0x1F0000000000000000#72).toNat ≤ 0x1F) ∧
    (0x2A ≤ (opField 0x2A0000000000000000#72).toNat ∧ (opField 0x2F0000000000000000#72).toNat ≤ 0x2F) ∧
    0x30 ≤ (opField 0x300000000000000000#72).toNat ∧
    (offered [0x300000000000000000#72] State.reset).input = .command 0x300000000000000000#72 :: [] :=
  by decide

theorem witness_SequenceErrorExactlyWhenOutOfSequence :
    outOfSequence .adlEnd State.reset = true ∧
    outOfSequence .adlEnd (adlOpenWith 1 0 0) = false :=
  by decide

theorem witness_ErrorFlagsStickyUntilReset :
    ((∀ rest, (offered [0x3F0000000000001234#72] { State.reset with errIll := true, errSeq := true }).input ≠ .reset :: rest) ∧
      (offered [0x3F0000000000001234#72] { State.reset with errIll := true, errSeq := true }).errIll = true ∧
      (offered [0x3F0000000000001234#72] { State.reset with errIll := true, errSeq := true }).errSeq = true) ∧
    ({ State.reset with input := [.reset] } : State).input = .reset :: [] :=
  ⟨⟨(by intro rest h; cases h), rfl, rfl⟩, rfl⟩

theorem witness_EncodeDecodeOfCanonicalWords :
    canonicalWord 0x140000000064636261#72 = true :=
  by decide

theorem witness_IgnoredDataBitsHaveNoEffect :
    (∀ k, k < usedBitCount 0x11 → (0x61 : Data).getLsbD k = (0xFFFFFFFFFFFFFF61 : Data).getLsbD k) ∧
    usedBitCount (opcodeOf (.crcD1 0x61)) ≤ 8 :=
  by decide

theorem witness_DecodingIsTotalByOpcode :
    (0x29FFFFFFFFFFFFFFFF#72).extractLsb' 64 8 ∈ opcodes ∧
    (0x2A0000000000000000#72).extractLsb' 64 8 ∉ opcodes :=
  by decide

theorem witness_StepRunsDecodedCommand :
    (offered [0x250000006564636261#72] State.reset).input = .command 0x250000006564636261#72 :: [] ∧
    decode 0x250000006564636261#72 = .command (.adlD5 0x61 0x62 0x63 0x64 0x65) :=
  by decide

theorem witness_HostTakesResponsesInOrder :
    (({ State.reset with input := [.take], rsp := [7, 8] } : State).input = .take :: [] ∧
      ({ State.reset with input := [.take], rsp := [7, 8] } : State).rsp = 7 :: [8]) ∧
    (({ State.reset with input := [.take] } : State).input = .take :: [] ∧ ({ State.reset with input := [.take] } : State).rsp = []) ∧
    State.reset.input = [] :=
  by decide

theorem witness_HardwareResetGivesResetState :
    ({ crcOpenWith 5 with input := [.reset, .take] } : State).input = .reset :: [.take] :=
  by decide

theorem witness_QueueBackPressureHoldsCommands :
    State.reset.rsp.length < 1 ∧
    (1 ≤ ({ State.reset with rsp := [7], input := [.command 1, .command 2, .take, .reset] } : State).rsp.length ∧
      ({ State.reset with rsp := [7], input := [.command 1, .command 2, .take, .reset] } : State).input =
        .command 1 :: ([2].map .command ++ .take :: [.reset])) ∧
    (1 ≤ ({ State.reset with rsp := [7], input := [.command 1, .command 2] } : State).rsp.length ∧
      ({ State.reset with rsp := [7], input := [.command 1, .command 2] } : State).input = .command 1 :: [2].map .command) ∧
    (State.reset.rsp.length ≤ 1 ∧ stepAt (some 1) State.reset = .next State.reset) :=
  ⟨by decide, by decide, by decide, by decide, rfl⟩

/-- The extreme of R14 (A25): one byte before the end of a chunk. -/
theorem adlExtreme_inv : (adlOpenWith 1481040 4293292200 5551).Inv where
  adl_bounded := by unfold AdlRegs.Bounded; decide
  crc_sel := by intro h; exact absurd rfl h
  adl_sel := fun _ => rfl
  crc_resolved := by decide
  adl_resolved := by decide
  first_err := by decide

theorem witness_StepKeepsInvariant :
    ((adlOpenWith 1481040 4293292200 5551).Inv ∧
      step (adlOpenWith 1481040 4293292200 5551) = .next (adlOpenWith 1481040 4293292200 5551)) :=
  ⟨adlExtreme_inv, rfl⟩

theorem witness_AdlerAdditionsNeverWrap :
    AdlRegs.Bounded ⟨1481040, 4293292200, 5551⟩ :=
  by unfold AdlRegs.Bounded; decide

theorem witness_SelectionIsFirstQualifyingAndWriteOnce :
    ((∀ j ∈ [(⟨1, ["x"], fun v _ => v⟩ : Kernel)], ¬ ∀ c ∈ j.requires, c ∈ ["y"]) ∧
      (∀ c ∈ (⟨2, ["y"], fun v _ => v⟩ : Kernel).requires, c ∈ ["y"])) ∧
    (step (crcOpenWith 5) = .next (crcOpenWith 5) ∧ (∀ rest, (crcOpenWith 5).input ≠ .reset :: rest) ∧
      (crcOpenWith 5).crcSel ≠ .unresolved ∧ ({ crcOpenWith 5 with adlSel := .resolved .reference } : State).adlSel ≠ .unresolved) ∧
    (State.reset.crcOpen = false ∧ State.reset.crcSel = .unresolved ∧ State.reset.adlOpen = false ∧ State.reset.adlSel = .unresolved) ∧
    ((crcOpenWith 5).crcOpen = true ∧ (adlOpenWith 1 0 0).adlOpen = true) :=
  ⟨by simp, ⟨rfl, (by intro rest h; cases h), by decide, by decide⟩, by decide, by decide⟩

theorem witness_SelectionChangesNoValue :
    AgreeUpToKernel (crcOpenWith 5) { crcOpenWith 5 with crcSel := .resolved (.kernel 3) } ∧
    (crcOpenWith 5).crcSel ≠ .unresolved ∧
    (adlOpenWith 1 0 0).adlSel ≠ .unresolved :=
  ⟨⟨rfl, rfl, rfl, rfl, rfl, rfl, rfl, by decide, .rfl, rfl, rfl, rfl⟩, by decide, by decide⟩

theorem witness_CrcOperationRespondsCrc32 :
    (allBeats crcBeatBytes [.crcD8 1 2 3 4 5 6 7 8, .crcD1 9] = true ∧ State.reset.crcOpen = false) :=
  by decide

theorem witness_AdlOperationRespondsAdler32 :
    (allBeats adlBeatBytes [.adlD8 1 2 3 4 5 6 7 8, .adlD1 9] = true ∧ State.reset.adlOpen = false) ∧
    ([1, 2] : List Byte) ≠ [] :=
  by decide

theorem witness_InterleavedOperationsKeepTheirResults :
    (State.reset.crcOpen = false ∧ ∀ i ∈ [Instr.crcD1 1, .adlEnd, .sysRdstat, .adlBegin 1, .crcD2 2 3], opcodeOf i ≠ 0x10 ∧ opcodeOf i ≠ 0x19) ∧
    (State.reset.adlOpen = false ∧ ∀ i ∈ [Instr.adlD1 1, .crcEnd, .sysRdstat, .crcBegin 1, .adlD2 2 3], opcodeOf i ≠ 0x20 ∧ opcodeOf i ≠ 0x29) :=
  by decide

theorem witness_Adler32Laws :
    ([0xFF] : List Byte) ≠ [] ∧
    (∀ b ∈ ([0, 0, 0] : List Byte), b = 0) :=
  by decide

theorem witness_SliceByEightEqualsByteSteps :
    (crcOpenWith 0xFFFFFFFF).crcOpen = true :=
  by decide

theorem witness_FourByteFormEqualsByteSteps :
    (crcOpenWith 0xFFFFFFFF).crcOpen = true :=
  by decide

theorem witness_TailFormsEqualByteSteps :
    (crcOpenWith 0xFFFFFFFF).crcOpen = true :=
  by decide

theorem witness_CrcByteIsEightBitSteps :
    31 < 32 :=
  by decide

theorem witness_ZeroByteFixesOnlyZeroRegister :
    (crcOpenWith 0xFFFFFFFF).crcOpen = true :=
  by decide

theorem witness_AdlerGroupsEqualByteSteps :
    (List.replicate 16 (0x41 : Byte)).length = 16 ∧
    (List.replicate 4 (0x41 : Byte)).length = 4 ∧
    (⟨1, 0, 5535⟩ : AdlRegs).cnt.toNat + (List.replicate 16 (0x41 : Byte)).length < 5552 ∧
    ((adlOpenWith 1 0 5547).adlOpen = true ∧ (adlOpenWith 1 0 5547).adlCnt.toNat + 4 < 5552) :=
  by decide

theorem witness_ChunkBoundDoesNotMatter :
    chunkBoundWf 1 = true ∧
    chunkBoundWf 5552 = true :=
  by decide

theorem witness_BeatPartitionDoesNotMatter :
    (allBeats crcBeatBytes [.crcD3 1 2 3] = true ∧ allBeats crcBeatBytes [.crcD1 1, .crcD2 2 3] = true ∧
      bytesOf crcBeatBytes [.crcD3 1 2 3] = bytesOf crcBeatBytes [.crcD1 1, .crcD2 2 3] ∧ (crcOpenWith 5).crcOpen = true) ∧
    (allBeats adlBeatBytes [.adlD3 1 2 3] = true ∧ allBeats adlBeatBytes [.adlD1 1, .adlD2 2 3] = true ∧
      bytesOf adlBeatBytes [.adlD3 1 2 3] = bytesOf adlBeatBytes [.adlD1 1, .adlD2 2 3] ∧ (adlOpenWith 1 0 5550).adlOpen = true) :=
  by decide

theorem witness_EnginesCommute :
    (isCrcCommand (.crcD1 1) = true ∧ isAdlCommand .adlEnd = true) :=
  by decide

theorem witness_TableContentsAsDefined :
    6 < 7 :=
  by decide

theorem witness_TableAddressesInRange :
    tab8Addr 7 0xFF = tab8Addr 7 0xFF :=
  rfl

theorem witness_ClosedEngineRegistersAreUnobservable :
    (AgreeOnVisible State.reset (State.reset.setCrcR 5) ∧ step State.reset = .next State.reset) :=
  ⟨⟨rfl, rfl, by decide, by decide, rfl, rfl, rfl, rfl, rfl, rfl, rfl, rfl⟩, rfl⟩

theorem witness_ExactlyThreeCommandsRespond :
    decode 0x3F0000000000001234#72 = .reserved 0x3F :=
  by decide

theorem witness_EachRegisterWrittenOnlyByItsCommands :
    writesCrcR .crcEnd = false ∧
    (opcodeOf (.crcD1 1) ≠ 0x10 ∧ opcodeOf (.crcD1 1) ≠ 0x19) ∧
    writesAdlRegs .sysNop = false ∧
    (opcodeOf (.adlD1 1) ≠ 0x20 ∧ opcodeOf (.adlD1 1) ≠ 0x29) ∧
    (opcodeOf (.adlD1 1) ≠ 0x01 ∧ opcodeOf (.adlD1 1) ≠ 0x19 ∧ opcodeOf (.adlD1 1) ≠ 0x29) :=
  by decide

theorem witness_NoErrorExactlyInLegalOrder :
    State.reset.anyError = false ∧
    (∃ t, runCommands [.crcBegin 0, .crcD1 1] State.reset = .next t ∧ t.anyError = false) :=
  ⟨rfl, _, rfl, rfl⟩

theorem witness_WellFormedRunsAreTheLegalLanguage :
    State.reset.WellFormedEnd := by unfold State.WellFormedEnd; decide

theorem witness_PseudoCommandsRealiseTheFunctions :
    (beatsOf crcBeatOf [1, 2, 3, 4, 5, 6, 7, 8, 9])[1]? = some (.crcD1 9) ∧
    (beatsOf adlBeatOf [1, 2, 3, 4, 5, 6, 7, 8, 9])[1]? = some (.adlD1 9) ∧
    (State.reset.crcOpen = false ∧ State.reset.adlOpen = false) :=
  by decide

theorem witness_ObservedResponsesOnlyGrow :
    (∀ rest, (offered [0x010000000000000000#72] State.reset).input ≠ .reset :: rest) :=
  by intro rest h; cases h

theorem witness_AssemblerWordsRoundTrip :
    (asmStatementWf (.command 0x10 (.number 0xFFFFFFFF)) = true ∧ asmStatementWf (.command 0x19 .absent) = true ∧
      asmStatementWf (.command 0x28 (.text [1, 2, 3, 4, 5, 6, 7, 8])) = true) ∧
    (asmOperandWf 0x14 (.text [0x31, 0x32, 0x33, 0x34]) = true ∧ reservedOpcode 0x14 = false) :=
  by decide

theorem witness_SelectedFunctionIsFirstQualifyingKernel :
    ((∀ j ∈ [(⟨1, ["x"], fun v _ => v⟩ : Kernel)], ¬ ∀ c ∈ j.requires, c ∈ ["y"]) ∧
      (∀ c ∈ (⟨2, ["y"], fun v _ => v⟩ : Kernel).requires, c ∈ ["y"])) ∧
    ((∀ k ∈ [(⟨1, [], crc32⟩ : Kernel)], kernelMeetsContract crc32 k) ∧ (∀ v bytes, crc32 v bytes = crc32 v bytes)) :=
  ⟨by simp, by simp [kernelMeetsContract], fun _ _ => rfl⟩

end Sys2Proof.Tests
end

section
/-! The byte steps of both engines, as R8 writes them. -/

namespace Sys2Proof.Machine

/-- One byte of the CRC engine; the table index is the low byte of `c ^ zext_32(b)` (R8). -/
theorem crcByte_eq (c : Word) (b : Byte) :
    crcByte c b = (c >>> 8) ^^^ tab1 ((c ^^^ b.setWidth 32).extractLsb' 0 8) := rfl

/-- One byte of the ADL engine. The model adds the new `s1` to `s2`, as the source does; R8 writes that sum from the old
halves, so the two differ in the grouping of the addition (R8). -/
theorem adlByte_eq (s1 s2 : Word) (b : Byte) :
    adlByte (s1, s2) b = (s1 + b.setWidth 32, s2 + s1 + b.setWidth 32) := by
  have regroup : s2 + (s1 + b.setWidth 32) = s2 + s1 + b.setWidth 32 := (BitVec.add_assoc ..).symm
  exact congrArg (Prod.mk (s1 + b.setWidth 32)) regroup

/-- Settles O7: each conjunct is the equation of one engine's byte step. -/
theorem byteStepsOfBothEngines : Obligations.ByteStepsOfBothEngines :=
  ⟨crcByte_eq, adlByte_eq⟩

end Sys2Proof.Machine
end

section
/-! The bounds of R14: no 32-bit addition of the ADL engine wraps, and the byte step, the load and the reduction keep within
them. -/

namespace Sys2Proof.Machine

theorem zext32_toNat (b : Byte) : (zext32 b).toNat = b.toNat :=
  BitVec.toNat_setWidth_of_le (by decide)

theorem lowHalf_toNat_le (v : Word) : (lowHalf v).toNat ≤ 65535 := by
  rw [lowHalf, BitVec.toNat_setWidth_of_le (by decide)]
  exact Nat.le_of_lt_succ (v.extractLsb' 0 16).isLt

theorem highHalf_toNat_le (v : Word) : (highHalf v).toNat ≤ 65535 := by
  rw [highHalf, BitVec.toNat_setWidth_of_le (by decide)]
  exact Nat.le_of_lt_succ (v.extractLsb' 16 16).isLt

theorem adlMod_toNat_le (v : Word) : (adlMod v).toNat ≤ 65520 := by
  have toNat_eq : (adlMod v).toNat = v.toNat % 65521 := BitVec.toNat_umod
  omega

/-- The sum of the first `n + 1` numbers, in the form R14 writes it. -/
theorem triangle_succ (n : Nat) : (n + 1) * (n + 1 + 1) / 2 = n * (n + 1) / 2 + (n + 1) := by
  simpa [Nat.mul_comm] using Nat.triangle_succ (n + 1)

/-- Within R14's bounds the sum of sums is at most its value one byte before the end of a chunk. -/
theorem triangle_le_of_le {n : Nat} (h : n ≤ 5551) : n * (n + 1) / 2 ≤ 15409576 :=
  Nat.div_le_div_right (c := 2) (Nat.mul_le_mul h (Nat.succ_le_succ h))

section
variable {r : AdlRegs} (b : Byte)

theorem AdlRegs.Bounded.s1_add_toNat (h : r.Bounded) : (r.s1 + zext32 b).toNat = r.s1.toNat + b.toNat := by
  obtain ⟨hcnt, hs1, -⟩ := h
  have hb := b.isLt
  rw [BitVec.toNat_add_of_lt, zext32_toNat]
  rw [zext32_toNat]
  omega

theorem AdlRegs.Bounded.s2_add_toNat (h : r.Bounded) :
    (r.s2 + (r.s1 + zext32 b)).toNat = r.s2.toNat + (r.s1.toNat + b.toNat) := by
  have hsum := h.s1_add_toNat b
  obtain ⟨hcnt, hs1, hs2⟩ := h
  have htri := triangle_le_of_le hcnt
  have hb := b.isLt
  rw [BitVec.toNat_add_of_lt, hsum]
  rw [hsum]
  omega

/-- The counter is 13 bits wide and does not wrap within its bound (R13). -/
theorem AdlRegs.Bounded.cnt_add_one_toNat (h : r.Bounded) : (r.cnt + 1).toNat = r.cnt.toNat + 1 := by
  have hcnt := h.1
  exact BitVec.toNat_add_of_lt (Nat.lt_of_le_of_lt (Nat.succ_le_succ hcnt) (by decide))

end

/-- Registers reduced or just loaded, with the counter at 0, are within the bounds. -/
theorem AdlRegs.bounded_of_cnt_zero {r : AdlRegs} (hcnt : r.cnt = 0) (hs1 : r.s1.toNat ≤ 65535) (hs2 : r.s2.toNat ≤ 65535) :
    r.Bounded := by
  simp [AdlRegs.Bounded, hcnt, hs1, hs2]

theorem adlLoad_bounded (v : Word) : (adlLoad v).Bounded :=
  AdlRegs.bounded_of_cnt_zero rfl (lowHalf_toNat_le v) (highHalf_toNat_le v)

theorem adlReduce_bounded (r : AdlRegs) : (adlReduce r).Bounded :=
  AdlRegs.bounded_of_cnt_zero rfl ((adlMod_toNat_le r.s1).trans (by decide)) ((adlMod_toNat_le r.s2).trans (by decide))

/-- A byte that does not end the chunk adds at most 255 to the one sum and that sum to the other; the byte that ends it reduces
(R14, R101). -/
theorem AdlRegs.Bounded.adlFold {r : AdlRegs} (h : r.Bounded) (b : Byte) : (adlFold r b).Bounded := by
  rcases adlFoldWith_cases Config.adlerChunkMax r b with ⟨-, hfold⟩ | ⟨hne, hfold⟩ <;> rw [Machine.adlFold, hfold]
  · exact adlReduce_bounded _
  · have hb := b.isLt
    have hadd1 := h.s1_add_toNat b
    have hadd2 := h.s2_add_toNat b
    have hcnt1 := h.cnt_add_one_toNat
    have htri := triangle_succ r.cnt.toNat
    obtain ⟨hcnt, hs1, hs2⟩ := h
    rw [hcnt1, Config.adlerChunkMax] at hne
    refine ⟨?_, ?_, ?_⟩ <;> simp only [hcnt1, hadd1, hadd2, htri] <;> omega

theorem AdlRegs.Bounded.adlFoldBytes {r : AdlRegs} (h : r.Bounded) (bytes : List Byte) : (adlFoldBytes r bytes).Bounded := by
  induction bytes generalizing r with
  | nil => exact h
  | cons b bs ih => exact ih (h.adlFold b)

theorem AdlRegs.Bounded.adlFinish {r : AdlRegs} (h : r.Bounded) : (adlFinish r).Bounded := by
  unfold Machine.adlFinish
  split
  · exact adlReduce_bounded r
  · exact h

/-- Settles O28: the byte step, the load and the reduction within the bounds, and the numbers of R14. -/
theorem adlerAdditionsNeverWrap : Obligations.AdlerAdditionsNeverWrap := by
  refine ⟨fun r b h => ⟨h.s1_add_toNat b, h.s2_add_toNat b, h.adlFold b⟩, fun v => ?_, fun r => ?_, by decide⟩
  · exact ⟨adlLoad_bounded v, rfl, lowHalf_toNat_le v, highHalf_toNat_le v⟩
  · exact ⟨adlMod_toNat_le r.s1, adlMod_toNat_le r.s2, rfl⟩

end Sys2Proof.Machine
end

section
/-! The invariant of the reachable states: it holds at reset and every step keeps it (R14, R24, R132, R145). -/

namespace Sys2Proof.Machine

/-- A take as one record update, an empty queue included (R19; log entry 7). -/
theorem State.takeResponse_eq (s : State) :
    s.takeResponse = { s with rsp := s.rsp.tail, taken := s.taken ++ s.rsp.head?.toList } := by
  rcases s.takeResponse_cases with ⟨hrsp, heq⟩ | ⟨v, rest, hrsp, heq⟩
  · rw [heq]; cases s; simp_all
  · rw [heq, hrsp]; rfl

theorem resolveSelection_ne_unresolved (ks : List Kernel) (cap : List Capability) (x : Selection) :
    resolveSelection ks cap x ≠ .unresolved := by
  cases x <;> simp [resolveSelection]

theorem SelectionSound.resolveSelection {ks : List Kernel} {x : Selection} (h : SelectionSound ks x) :
    SelectionSound ks (resolveSelection ks Config.cap x) := by
  rcases resolveSelection_cases ks Config.cap x with ⟨-, heq⟩ | ⟨-, heq⟩ <;> rw [heq]
  · exact fun _ => rfl
  · exact h

theorem selectionSound_unresolved (ks : List Kernel) : SelectionSound ks .unresolved :=
  fun h => absurd rfl h

theorem State.hardwareReset_inv (s : State) : s.hardwareReset.Inv where
  adl_bounded := AdlRegs.bounded_of_cnt_zero rfl (Nat.zero_le _) (Nat.zero_le _)
  crc_sel := selectionSound_unresolved _
  adl_sel := selectionSound_unresolved _
  crc_resolved := fun h => nomatch h
  adl_resolved := fun h => nomatch h
  first_err := fun _ => rfl

/-- Settles O26: `State.reset` is the hardware reset of itself. -/
theorem resetMeetsInvariant : Obligations.ResetMeetsInvariant :=
  State.reset.hardwareReset_inv

section
variable {s : State}

theorem State.Inv.raiseError (h : s.Inv) (cause : ErrorCause) (op : Byte) : (s.raiseError cause op).Inv :=
  { h with first_err := fun hnone => absurd hnone (by simp) }

theorem State.Inv.takeResponse (h : s.Inv) : s.takeResponse.Inv := by
  rw [s.takeResponse_eq]
  exact { h with }

/-- Every command answers a next state within the invariant. -/
theorem State.Inv.exec (h : s.Inv) (i : Instr) : ∃ t, exec i s = .next t ∧ t.Inv := by
  rcases exec_cases i s with ⟨-, heq⟩ | ⟨-, heq⟩ | ⟨-, heq⟩ | ⟨v, -, -, heq⟩ | ⟨bytes, -, -, heq⟩ | ⟨-, -, heq⟩ |
    ⟨v, -, -, heq⟩ | ⟨bytes, -, -, heq⟩ | ⟨-, -, heq⟩ <;> refine ⟨_, heq, ?_⟩
  · exact h.raiseError _ _
  · exact h
  · exact { h with }
  · exact { h with crc_sel := h.crc_sel.resolveSelection, crc_resolved := fun _ => resolveSelection_ne_unresolved _ _ _ }
  · exact { h with }
  · exact { h with crc_resolved := fun hopen => nomatch hopen }
  · exact { h with
      adl_bounded := adlLoad_bounded v
      adl_sel := h.adl_sel.resolveSelection
      adl_resolved := fun _ => resolveSelection_ne_unresolved _ _ _ }
  · exact { h with adl_bounded := h.adl_bounded.adlFoldBytes bytes }
  · exact { h with adl_bounded := h.adl_bounded.adlFinish, adl_resolved := fun hopen => nomatch hopen }

theorem State.Inv.acceptCommand (h : s.Inv) (w : CmdWord) : ∃ t, acceptCommand w s = .next t ∧ t.Inv := by
  rcases acceptCommand_cases w s with ⟨i, -, heq⟩ | ⟨op, -, heq⟩ <;> rw [heq]
  · exact h.exec i
  · exact ⟨_, rfl, h.raiseError _ op⟩

theorem State.Inv.perform (h : s.Inv) (e : PortEvent) : ∃ t, perform e s = .next t ∧ t.Inv := by
  cases e with
  | command w => exact h.acceptCommand w
  | take => exact ⟨_, rfl, h.takeResponse⟩
  | reset => exact ⟨_, rfl, s.hardwareReset_inv⟩

theorem State.Inv.step (h : s.Inv) : ∃ t, step s = .next t ∧ t.Inv := by
  cases hin : s.input with
  | nil => exact ⟨s, step_of_no_input hin, h⟩
  | cons e rest =>
    have hrest : (s.setInput rest).Inv := { h with }
    rw [step_of_input hin]
    exact hrest.perform e

end

/-- Settles O27: the next state is the one `State.Inv.step` gives. -/
theorem stepKeepsInvariant : Obligations.StepKeepsInvariant := by
  intro s t h hstep
  obtain ⟨t', hstep', ht'⟩ := h.step
  cases hstep.symm.trans hstep'
  exact ht'

end Sys2Proof.Machine
end

section
/-! Relations between states that no step can break, said once for both relations of this model: if each operation keeps the
relation where its command's sequence check lets it happen, so does the step. -/

namespace Sys2Proof.Machine

/-- Both outcomes are next states, and these are related. -/
def NextRelated (R : State → State → Prop) (x y : Result) : Prop :=
  ∃ s' t', x = .next s' ∧ y = .next t' ∧ R s' t'

/-- The operation `f` keeps the relation between states of which the first meets the guard. -/
def KeepsRelation (R : State → State → Prop) (guard : State → Bool) (f : State → State) : Prop :=
  ∀ ⦃s t : State⦄, R s t → guard s = true → R (f s) (f t)

/-- What a relation between states needs so that every step keeps it: it fixes what the sequence checks and the host's list
decide on, and each effect of a command (`exec_cases`) and each action at the ports keeps it. -/
structure StepCongruence (R : State → State → Prop) : Prop where
  refl : ∀ s, R s s
  crcOpen : ∀ ⦃s t⦄, R s t → s.crcOpen = t.crcOpen
  adlOpen : ∀ ⦃s t⦄, R s t → s.adlOpen = t.adlOpen
  input : ∀ ⦃s t⦄, R s t → s.input = t.input
  taken : ∀ ⦃s t⦄, R s t → s.taken = t.taken
  setInput : ∀ es, KeepsRelation R (fun _ => true) (State.setInput es)
  takeResponse : KeepsRelation R (fun _ => true) State.takeResponse
  raiseError : ∀ cause op, KeepsRelation R (fun _ => true) (State.raiseError cause op)
  rdstat : KeepsRelation R (fun _ => true) fun s => s.respond (status s)
  crcBegin : ∀ v, KeepsRelation R (fun s => !s.crcOpen) fun s =>
    ((s.setCrcSel (resolveSelection Config.kernelsCrc Config.cap s.crcSel)).setCrcR (~~~v)).setCrcOpen true
  crcBeat : ∀ bytes, KeepsRelation R State.crcOpen fun s => s.setCrcR (crcFold s.crcR bytes)
  crcEnd : KeepsRelation R State.crcOpen fun s => (s.respond (~~~s.crcR)).setCrcOpen false
  adlBegin : ∀ v, KeepsRelation R (fun s => !s.adlOpen) fun s =>
    ((s.setAdlSel (resolveSelection Config.kernelsAdl Config.cap s.adlSel)).setAdlRegs (adlLoad v)).setAdlOpen true
  adlBeat : ∀ bytes, KeepsRelation R State.adlOpen fun s => s.setAdlRegs (adlFoldBytes s.adlRegs bytes)
  adlEnd : KeepsRelation R State.adlOpen fun s =>
    ((s.setAdlRegs (adlFinish s.adlRegs)).respond (adlResponse s.adlRegs)).setAdlOpen false

theorem State.hardwareReset_congr {s t : State} (hinput : s.input = t.input) (htaken : s.taken = t.taken) :
    s.hardwareReset = t.hardwareReset := by
  rw [State.hardwareReset, State.hardwareReset, hinput, htaken]

namespace StepCongruence

variable {R : State → State → Prop} (hR : StepCongruence R) {s t : State} (h : R s t)
include hR h

/-- Two states that agree on the guard take the same way through the sequence check (R142). -/
theorem sequenced {guard : State → Bool} {f : State → State} (hf : KeepsRelation R guard f) (hguard : guard s = guard t)
    (op : Byte) : NextRelated R (sequenced (guard s) op f s) (sequenced (guard t) op f t) := by
  rw [← hguard]
  cases hok : guard s with
  | true => exact ⟨_, _, rfl, rfl, hf h hok⟩
  | false => exact ⟨_, _, rfl, rfl, hR.raiseError _ op h rfl⟩

theorem exec (i : Instr) : NextRelated R (exec i s) (exec i t) := by
  have hcrc := hR.crcOpen h
  have hadl := hR.adlOpen h
  cases i with
  | sysNop => exact ⟨s, t, rfl, rfl, h⟩
  | sysRdstat => exact ⟨_, _, rfl, rfl, hR.rdstat h rfl⟩
  | crcBegin v => exact hR.sequenced h (hR.crcBegin v) (congrArg not hcrc) _
  | crcEnd => exact hR.sequenced h hR.crcEnd hcrc _
  | crcD1 | crcD2 | crcD3 | crcD4 | crcD5 | crcD6 | crcD7 | crcD8 => exact hR.sequenced h (hR.crcBeat _) hcrc _
  | adlBegin v => exact hR.sequenced h (hR.adlBegin v) (congrArg not hadl) _
  | adlEnd => exact hR.sequenced h hR.adlEnd hadl _
  | adlD1 | adlD2 | adlD3 | adlD4 | adlD5 | adlD6 | adlD7 | adlD8 => exact hR.sequenced h (hR.adlBeat _) hadl _

theorem acceptCommand (w : CmdWord) : NextRelated R (acceptCommand w s) (acceptCommand w t) := by
  unfold Machine.acceptCommand
  cases decode w with
  | command i => exact hR.exec h i
  | reserved op => exact ⟨_, _, rfl, rfl, hR.raiseError _ op h rfl⟩

theorem perform (e : PortEvent) : NextRelated R (perform e s) (perform e t) := by
  cases e with
  | command w => exact hR.acceptCommand h w
  | take => exact ⟨_, _, rfl, rfl, hR.takeResponse h rfl⟩
  | reset =>
    refine ⟨_, _, rfl, rfl, ?_⟩
    rw [State.hardwareReset_congr (hR.input h) (hR.taken h)]
    exact hR.refl _

theorem step : NextRelated R (step s) (step t) := by
  have hinput := hR.input h
  cases hin : s.input with
  | nil => exact ⟨s, t, step_of_no_input hin, step_of_no_input (hinput ▸ hin), h⟩
  | cons e rest =>
    rw [step_of_input hin, step_of_input (hinput ▸ hin)]
    exact hR.perform (hR.setInput rest h rfl) e

end StepCongruence

end Sys2Proof.Machine
end

section
/-! Working registers of closed engines (R11, R12, R24) and kernel ids of resolved latches (R20, R133): no step makes either
visible. -/

namespace Sys2Proof.Machine

/-- The resolved flag is all that `STATUS` shows of a latch (R15, R20). -/
theorem Selection.isResolved_eq_iff (x y : Selection) :
    x.isResolved = y.isResolved ↔ (x = .unresolved ↔ y = .unresolved) := by
  cases x <;> cases y <;> simp [Selection.isResolved]

/-- `STATUS` depends on the fields of R17 alone. -/
theorem status_congr {s t : State} (hcrc : s.crcOpen = t.crcOpen) (hadl : s.adlOpen = t.adlOpen) (hill : s.errIll = t.errIll)
    (hseq : s.errSeq = t.errSeq) (hfirst : s.firstErrOp = t.firstErrOp)
    (hcrcSel : s.crcSel = .unresolved ↔ t.crcSel = .unresolved) (hadlSel : s.adlSel = .unresolved ↔ t.adlSel = .unresolved) :
    status s = status t := by
  rw [← Selection.isResolved_eq_iff] at hcrcSel hadlSel
  simp only [status, hcrc, hadl, hill, hseq, hfirst, hcrcSel, hadlSel]

theorem resolveSelection_unresolved_iff (ks : List Kernel) (cap : List Capability) (x y : Selection) :
    resolveSelection ks cap x = .unresolved ↔ resolveSelection ks cap y = .unresolved :=
  iff_of_false (resolveSelection_ne_unresolved ks cap x) (resolveSelection_ne_unresolved ks cap y)

/-- What an error entry writes depends on the error state alone (R145). -/
theorem State.raiseError_firstErrOp_congr {s t : State} (hill : s.errIll = t.errIll) (hseq : s.errSeq = t.errSeq)
    (hfirst : s.firstErrOp = t.firstErrOp) (cause : ErrorCause) (op : Byte) :
    (s.raiseError cause op).firstErrOp = (t.raiseError cause op).firstErrOp := by
  have hany : s.anyError = t.anyError := congrArg₂ or hill hseq
  rw [State.raiseError_firstErrOp, State.raiseError_firstErrOp, hany, hfirst]

section
variable {s t : State}

theorem AgreeOnVisible.refl (s : State) : AgreeOnVisible s s := by
  constructor <;> intros <;> rfl

theorem AgreeOnVisible.status_eq (h : AgreeOnVisible s t) : status s = status t :=
  status_congr h.crcOpen h.adlOpen h.errIll h.errSeq h.firstErrOp (by rw [h.crcSel]) (by rw [h.adlSel])

theorem AgreeOnVisible.observation_eq (h : AgreeOnVisible s t) : observation s = observation t := by
  rw [observation, observation, h.taken, h.rsp, h.status_eq]

/-- Responding the same word and closing the ADL engine with the same registers keeps the relation (R110). -/
theorem AgreeOnVisible.adlClose (h : AgreeOnVisible s t) (r : AdlRegs) (v : Word) :
    AgreeOnVisible (((s.setAdlRegs r).respond v).setAdlOpen false) (((t.setAdlRegs r).respond v).setAdlOpen false) :=
  { h with adlOpen := rfl, adlRegs := fun _ => rfl, rsp := congrArg (· ++ [v]) h.rsp }

theorem AgreeUpToKernel.refl (s : State) : AgreeUpToKernel s s := by
  constructor <;> rfl

theorem AgreeUpToKernel.status_eq (h : AgreeUpToKernel s t) : status s = status t :=
  status_congr h.crcOpen h.adlOpen h.errIll h.errSeq h.firstErrOp h.crcSel h.adlSel

theorem AgreeUpToKernel.observation_eq (h : AgreeUpToKernel s t) : observation s = observation t := by
  rw [observation, observation, h.taken, h.rsp, h.status_eq]

/-- Responding the same word and closing the ADL engine with the same registers keeps the relation (R110). -/
theorem AgreeUpToKernel.adlClose (h : AgreeUpToKernel s t) (r : AdlRegs) (v : Word) :
    AgreeUpToKernel (((s.setAdlRegs r).respond v).setAdlOpen false) (((t.setAdlRegs r).respond v).setAdlOpen false) :=
  { h with adlOpen := rfl, adlRegs := rfl, rsp := congrArg (· ++ [v]) h.rsp }

end

/-- `BEGIN` writes the registers before it opens the engine, a beat computes from registers that agree, and `END` closes the
engine after it has responded from registers that agree. -/
theorem agreeOnVisible_stepCongruence : StepCongruence AgreeOnVisible where
  refl := AgreeOnVisible.refl
  crcOpen _ _ h := h.crcOpen
  adlOpen _ _ h := h.adlOpen
  input _ _ h := h.input
  taken _ _ h := h.taken
  setInput _ _ _ h _ := { h with input := rfl }
  takeResponse s t h _ := by
    rw [s.takeResponse_eq, t.takeResponse_eq]
    exact { h with rsp := congrArg List.tail h.rsp, taken := by simp only [h.taken, h.rsp] }
  raiseError cause op _ _ h _ :=
    { h with
      errIll := congrArg (· || _) h.errIll
      errSeq := congrArg (· || _) h.errSeq
      firstErrOp := State.raiseError_firstErrOp_congr h.errIll h.errSeq h.firstErrOp cause op }
  rdstat _ _ h _ := { h with rsp := by simp only [State.respond_rsp, h.rsp, h.status_eq] }
  crcBegin _ _ _ h _ := { h with crcOpen := rfl, crcR := fun _ => rfl, crcSel := congrArg (resolveSelection _ _) h.crcSel }
  crcBeat bytes _ _ h hopen := { h with crcR := fun _ => congrArg (crcFold · bytes) (h.crcR hopen) }
  crcEnd _ _ h hopen :=
    { h with
      crcOpen := rfl
      crcR := fun hfalse => nomatch hfalse
      rsp := by simp only [State.setCrcOpen_rsp, State.respond_rsp, h.rsp, h.crcR hopen] }
  adlBegin _ _ _ h _ := { h with adlOpen := rfl, adlRegs := fun _ => rfl, adlSel := congrArg (resolveSelection _ _) h.adlSel }
  adlBeat bytes _ _ h hopen := { h with adlRegs := fun _ => congrArg (adlFoldBytes · bytes) (h.adlRegs hopen) }
  adlEnd _ t h hopen := by simpa only [h.adlRegs hopen] using h.adlClose (adlFinish t.adlRegs) (adlResponse t.adlRegs)

/-- Settles O51: the relation is kept by the step, shows nothing, and holds of any reset values of the four registers. -/
theorem closedEngineRegistersAreUnobservable : Obligations.ClosedEngineRegistersAreUnobservable := by
  refine ⟨fun s t s' h hstep => ?_, fun s t h => h.observation_eq, fun r a => ?_⟩
  · obtain ⟨s'', t', hs, ht, h'⟩ := agreeOnVisible_stepCongruence.step h
    cases hs.symm.trans hstep
    exact ⟨t', ht, h'⟩
  · exact { AgreeOnVisible.refl State.reset with crcR := (nomatch ·), adlRegs := (nomatch ·) }

/-- No operation reads the kernel a latch names; `BEGIN` leaves both latches resolved. -/
theorem agreeUpToKernel_stepCongruence : StepCongruence AgreeUpToKernel where
  refl := AgreeUpToKernel.refl
  crcOpen _ _ h := h.crcOpen
  adlOpen _ _ h := h.adlOpen
  input _ _ h := h.input
  taken _ _ h := h.taken
  setInput _ _ _ h _ := { h with input := rfl }
  takeResponse s t h _ := by
    rw [s.takeResponse_eq, t.takeResponse_eq]
    exact { h with rsp := congrArg List.tail h.rsp, taken := by simp only [h.taken, h.rsp] }
  raiseError cause op _ _ h _ :=
    { h with
      errIll := congrArg (· || _) h.errIll
      errSeq := congrArg (· || _) h.errSeq
      firstErrOp := State.raiseError_firstErrOp_congr h.errIll h.errSeq h.firstErrOp cause op }
  rdstat _ _ h _ := { h with rsp := by simp only [State.respond_rsp, h.rsp, h.status_eq] }
  crcBegin _ _ _ h _ := { h with crcOpen := rfl, crcR := rfl, crcSel := resolveSelection_unresolved_iff _ _ _ _ }
  crcBeat bytes _ _ h _ := { h with crcR := congrArg (crcFold · bytes) h.crcR }
  crcEnd _ _ h _ := { h with crcOpen := rfl, rsp := by simp only [State.setCrcOpen_rsp, State.respond_rsp, h.rsp, h.crcR] }
  adlBegin _ _ _ h _ := { h with adlOpen := rfl, adlRegs := rfl, adlSel := resolveSelection_unresolved_iff _ _ _ _ }
  adlBeat bytes _ _ h _ := { h with adlRegs := congrArg (adlFoldBytes · bytes) h.adlRegs }
  adlEnd _ t h _ := by simpa only [h.adlRegs] using h.adlClose (adlFinish t.adlRegs) (adlResponse t.adlRegs)

end Sys2Proof.Machine
end

section
/-! `STATUS` bit by bit (R17), and what of the selection latches can be seen in it (R20, R133). -/

namespace Sys2Proof.Machine

theorem Selection.isResolved_iff (x : Selection) : x.isResolved = true ↔ x ≠ .unresolved := by
  cases x <;> simp [Selection.isResolved]

theorem flagBit_getLsbD (b : Bool) (n i : Nat) : (flagBit b n).getLsbD i = (decide (i < 32) && decide (i = n) && b) := by
  cases b with
  | false => simp [flagBit]
  | true =>
    have htwoPow : flagBit true n = BitVec.twoPow 32 n := rfl
    rw [htwoPow, BitVec.getLsbD_twoPow]
    by_cases h : i = n
    · simp [h]
    · simp [h, Ne.symm h]

/-- Each bit of `STATUS` comes from one field (R17). -/
theorem status_getLsbD (s : State) {i : Nat} (hi : i < 32) :
    (status s).getLsbD i = (!decide (i < 8) && s.firstErrOp.getLsbD (i - 8) || decide (i = 5) && s.errSeq ||
      decide (i = 4) && s.errIll || decide (i = 3) && s.adlSel.isResolved || decide (i = 2) && s.crcSel.isResolved ||
      decide (i = 1) && s.adlOpen || decide (i = 0) && s.crcOpen) := by
  have hop : (zext32 s.firstErrOp <<< 8).getLsbD i = (!decide (i < 8) && s.firstErrOp.getLsbD (i - 8)) := by
    simp [hi]
  simp only [status, BitVec.getLsbD_or, flagBit_getLsbD, hop, hi, decide_true, Bool.true_and]

theorem flagBit_eq_shiftLeft (b : Bool) (n : Nat) : flagBit b n = (if b then 1 else 0 : Word) <<< n := by
  cases b <;> rfl

theorem flagBit_isResolved_eq_shiftLeft (x : Selection) (n : Nat) :
    flagBit x.isResolved n = (if x = .unresolved then 0 else 1 : Word) <<< n := by
  cases x <;> rfl

theorem status_eq_formula (s : State) :
    status s = (s.firstErrOp.setWidth 32 <<< 8 ||| (if s.errSeq then 1 else 0 : Word) <<< 5 |||
      (if s.errIll then 1 else 0 : Word) <<< 4 ||| (if s.adlSel = .unresolved then 0 else 1 : Word) <<< 3 |||
      (if s.crcSel = .unresolved then 0 else 1 : Word) <<< 2 ||| (if s.adlOpen then 1 else 0 : Word) <<< 1 |||
      (if s.crcOpen then 1 else 0) : Word) := by
  have hbit0 : flagBit s.crcOpen 0 = (if s.crcOpen then 1 else 0 : Word) := by rw [flagBit_eq_shiftLeft, BitVec.shiftLeft_zero]
  rw [status, hbit0, flagBit_isResolved_eq_shiftLeft, flagBit_isResolved_eq_shiftLeft, flagBit_eq_shiftLeft,
    flagBit_eq_shiftLeft, flagBit_eq_shiftLeft]

/-- Bits 7:6 of `STATUS` are reserved (R17). -/
theorem status_reserved_low (s : State) : (status s).extractLsb' 6 2 = 0 := by
  refine BitVec.eq_of_getLsbD_eq fun i hi => ?_
  rw [BitVec.getLsbD_extractLsb', status_getLsbD s (by omega)]
  interval_cases i <;> simp

/-- Bits 31:16 of `STATUS` are reserved (R17). -/
theorem status_reserved_high (s : State) : (status s).extractLsb' 16 16 = 0 := by
  refine BitVec.eq_of_getLsbD_eq fun i hi => ?_
  have hop : s.firstErrOp.getLsbD (16 + i - 8) = false := BitVec.getLsbD_of_ge _ _ (by omega)
  rw [BitVec.getLsbD_extractLsb', status_getLsbD s (by omega), hop]
  simp [show 16 + i ≠ 5 ∧ 16 + i ≠ 4 ∧ 16 + i ≠ 3 ∧ 16 + i ≠ 2 ∧ 16 + i ≠ 1 by omega]

/-- Bits 15:8 of `STATUS` are the opcode byte of the first error (R17). -/
theorem status_firstErrOp (s : State) : (status s).extractLsb' 8 8 = s.firstErrOp := by
  refine BitVec.eq_of_getLsbD_eq fun i hi => ?_
  rw [BitVec.getLsbD_extractLsb', status_getLsbD s (by omega)]
  simp [hi, show 8 + i ≠ 5 ∧ 8 + i ≠ 4 ∧ 8 + i ≠ 3 ∧ 8 + i ≠ 2 ∧ 8 + i ≠ 1 by omega]

/-- Settles O3: the flag bits by `status_getLsbD`, the ranges and the formula by their own lemmas. -/
theorem statusFieldsAsLaidOut : Obligations.StatusFieldsAsLaidOut := by
  intro s
  refine ⟨?_, ?_, ?_, ?_, ?_, ?_, status_reserved_low s, status_firstErrOp s, status_reserved_high s, status_eq_formula s⟩
  · simpa using status_getLsbD s (i := 0) (by decide)
  · simpa using status_getLsbD s (i := 1) (by decide)
  · rw [status_getLsbD s (by decide)]
    simpa using s.crcSel.isResolved_iff
  · rw [status_getLsbD s (by decide)]
    simpa using s.adlSel.isResolved_iff
  · simpa using status_getLsbD s (i := 4) (by decide)
  · simpa using status_getLsbD s (i := 5) (by decide)

/-- Of the latches `STATUS` shows bits 2 and 3 and no more (R17, R20). -/
theorem status_and_not_latches (s : State) (x y : Selection) :
    status { s with crcSel := x, adlSel := y } &&& ~~~0x0000000C = status s &&& ~~~0x0000000C := by
  refine BitVec.eq_of_getLsbD_eq fun i hi => ?_
  rw [BitVec.getLsbD_and, BitVec.getLsbD_and, status_getLsbD _ hi, status_getLsbD _ hi]
  by_cases hlatch : i = 2 ∨ i = 3
  · rcases hlatch with rfl | rfl <;> simp
  · obtain ⟨h2, h3⟩ := not_or.mp hlatch
    simp [h2, h3]

/-- Settles O30: the relation is kept by the step and shows nothing, and the latches show in bits 2 and 3 alone. -/
theorem selectionChangesNoValue : Obligations.SelectionChangesNoValue := by
  refine ⟨fun s t h => ⟨h.observation_eq, ?_⟩, fun s k hres => ?_, fun s k hres => ?_,
    fun s x y => ⟨rfl, status_and_not_latches s x y⟩⟩
  · obtain ⟨s', t', hs, ht, h'⟩ := agreeUpToKernel_stepCongruence.step h
    exact ⟨s', t', hs, ht, h', h'.observation_eq⟩
  · exact { AgreeUpToKernel.refl s with crcSel := iff_of_false hres (by simp) }
  · exact { AgreeUpToKernel.refl s with adlSel := iff_of_false hres (by simp) }

end Sys2Proof.Machine
end

section
/-! What a command leaves as it was (R10), and that responses are only ever appended (R19). -/

namespace Sys2Proof.Machine

open Stated

/-- Settles O53: each effect of `exec_cases` writes the registers of its own command. -/
theorem eachRegisterWrittenOnlyByItsCommands : Obligations.EachRegisterWrittenOnlyByItsCommands := by
  intro i s
  rcases exec_cases i s with ⟨-, heq⟩ | ⟨-, heq⟩ | ⟨rfl, heq⟩ | ⟨v, rfl, -, heq⟩ | ⟨bytes, hbytes, -, heq⟩ | ⟨rfl, -, heq⟩ |
    ⟨v, rfl, -, heq⟩ | ⟨bytes, hbytes, -, heq⟩ | ⟨rfl, -, heq⟩ <;> refine ⟨_, heq, ?_⟩
  · simp
  · simp
  · simp [opcodeOf]
  · simp [opcodeOf, writesCrcR]
  · simp [writesCrcR, hbytes]
  · simp [opcodeOf]
  · simp [opcodeOf, writesAdlRegs]
  · simp [writesAdlRegs, hbytes]
  · simp [opcodeOf, writesAdlRegs]

/-- The second state has the first one's responses, with at most one word appended, and the host has taken nothing. -/
def AppendsResponse (s t : State) : Prop :=
  t.taken = s.taken ∧ ∃ vs, t.rsp = s.rsp ++ vs ∧ vs.length ≤ 1

theorem AppendsResponse.of_rsp_eq {s t : State} (htaken : t.taken = s.taken) (hrsp : t.rsp = s.rsp) : AppendsResponse s t :=
  ⟨htaken, [], by rw [hrsp, List.append_nil], Nat.zero_le 1⟩

theorem AppendsResponse.of_rsp_append {s t : State} {v : Word} (htaken : t.taken = s.taken) (hrsp : t.rsp = s.rsp ++ [v]) :
    AppendsResponse s t :=
  ⟨htaken, [v], hrsp, Nat.le_refl 1⟩

/-- Every command answers a next state and appends at most one response (R19, R65). -/
theorem exec_appendsResponse (i : Instr) (s : State) : ∃ t, exec i s = .next t ∧ AppendsResponse s t := by
  rcases exec_cases i s with ⟨-, heq⟩ | ⟨-, heq⟩ | ⟨-, heq⟩ | ⟨v, -, -, heq⟩ | ⟨bytes, -, -, heq⟩ | ⟨-, -, heq⟩ |
    ⟨v, -, -, heq⟩ | ⟨bytes, -, -, heq⟩ | ⟨-, -, heq⟩ <;> refine ⟨_, heq, ?_⟩
  · exact .of_rsp_eq rfl rfl
  · exact .of_rsp_eq rfl rfl
  · exact .of_rsp_append rfl rfl
  · exact .of_rsp_eq rfl rfl
  · exact .of_rsp_eq rfl rfl
  · exact .of_rsp_append rfl rfl
  · exact .of_rsp_eq rfl rfl
  · exact .of_rsp_eq rfl rfl
  · exact .of_rsp_append rfl rfl

theorem acceptCommand_appendsResponse (w : CmdWord) (s : State) : ∃ t, acceptCommand w s = .next t ∧ AppendsResponse s t := by
  rcases acceptCommand_cases w s with ⟨i, -, heq⟩ | ⟨op, -, heq⟩ <;> rw [heq]
  · exact exec_appendsResponse i s
  · exact ⟨_, rfl, .of_rsp_eq rfl rfl⟩

/-- Settles O57: a command appends, a take moves a word from one part of what is seen to the other. -/
theorem observedResponsesOnlyGrow : Obligations.ObservedResponsesOnlyGrow := by
  intro s hreset
  cases hin : s.input with
  | nil => exact ⟨s, step_of_no_input hin, [], by simp⟩
  | cons e rest =>
    rw [step_of_input hin]
    cases e with
    | command w =>
      obtain ⟨t, ht, htaken, vs, hrsp, hlen⟩ := acceptCommand_appendsResponse w (s.setInput rest)
      refine ⟨t, ht, vs, ?_, hlen⟩
      simp [observation, htaken, hrsp]
    | take => exact ⟨_, rfl, [], by simp [observation, State.takeResponse_responses]⟩
    | reset => exact absurd hin (hreset rest)

end Sys2Proof.Machine
end

section
/-! The step under the unbounded queue, action by action (R16, R19, R24). -/

namespace Sys2Proof.Machine

/-- Settles O21: the command port hands a decoded word to `exec`. -/
theorem stepRunsDecodedCommand : Obligations.StepRunsDecodedCommand := by
  intro w i s rest hin hdec
  rw [step_of_input hin, perform, acceptCommand, hdec]
  rfl

/-- Settles O22: a take in terms of the queue it finds, and the idle step. -/
theorem hostTakesResponsesInOrder : Obligations.HostTakesResponsesInOrder := by
  refine ⟨fun s rest v vs hin hrsp => ?_, fun s rest hin hrsp => ?_, fun s => step_of_no_input⟩ <;>
    rw [step_of_input hin, perform, State.takeResponse_eq, State.setInput_rsp, hrsp]
  · rfl
  · simp [State.setInput, hrsp]

theorem State.hardwareReset_status (s : State) : status s.hardwareReset = 0 :=
  show status State.reset = 0 by decide

/-- Settles O23: the hardware reset field by field. -/
theorem hardwareResetGivesResetState : Obligations.HardwareResetGivesResetState := by
  refine ⟨fun s rest hin => ⟨(s.setInput rest).hardwareReset, ?_⟩, by decide⟩
  exact ⟨step_of_input hin, rfl, rfl, rfl, rfl, rfl, rfl, rfl, rfl, State.hardwareReset_status _⟩

end Sys2Proof.Machine
end

section
/-! Back-pressure: the command port under a response queue of finite depth (R19, R166; log entry 6). -/

namespace Sys2Proof.Machine

theorem queueFull_some_iff (d : Nat) (rsp : List Word) : queueFull (some d) rsp = true ↔ d ≤ rsp.length :=
  decide_eq_true_iff

section
variable {depth : Option Nat} {s : State}

/-- A queue with room decides nothing: the host's first action happens, as with no bound. -/
theorem nextEvent_of_not_full (h : queueFull depth s.rsp = false) : nextEvent depth s = nextEvent none s := by
  have hnone : queueFull none s.rsp = false := rfl
  unfold nextEvent
  rw [h, hnone]

/-- A full queue holds the command: what happens is the host's first action that is no command. -/
theorem nextEvent_of_full {w : CmdWord} {rest : List PortEvent} (hfull : queueFull depth s.rsp = true)
    (hin : s.input = .command w :: rest) : nextEvent depth s = (firstNonCommand s.input).map some := by
  simp [nextEvent, hin, hfull]

end

theorem firstNonCommand_commands_take (ws : List CmdWord) (post : List PortEvent) :
    firstNonCommand (ws.map .command ++ .take :: post) = some (.take, ws.map .command ++ post) := by
  induction ws with
  | nil => rfl
  | cons w ws ih => simp [firstNonCommand, ih]

theorem firstNonCommand_commands (ws : List CmdWord) : firstNonCommand (ws.map .command) = none := by
  induction ws with
  | nil => rfl
  | cons w ws ih => simp [firstNonCommand, ih]

theorem firstNonCommand_ne_command (w : CmdWord) (es rest : List PortEvent) : firstNonCommand es ≠ some (.command w, rest) := by
  induction es generalizing rest with
  | nil => simp [firstNonCommand]
  | cons e es ih =>
    cases e with
    | command w' => simp [firstNonCommand, ih]
    | take => simp [firstNonCommand]
    | reset => simp [firstNonCommand]

/-- A command is taken only while the queue has room (R166). -/
theorem not_full_of_nextEvent_command {depth : Option Nat} {s : State} {w : CmdWord} {rest : List PortEvent}
    (h : nextEvent depth s = some (some (.command w, rest))) : queueFull depth s.rsp = false := by
  by_contra hfull
  rw [Bool.not_eq_false] at hfull
  rcases hin : s.input with _ | ⟨_ | _ | _, rest'⟩
  case cons.command =>
    rw [nextEvent_of_full hfull hin] at h
    simp [firstNonCommand_ne_command] at h
  all_goals simp [nextEvent, hin] at h

/-- No step overfills a queue of finite depth: a command appends one word where there is room, and nothing else appends. -/
theorem stepAt_rsp_length_le {d : Nat} {s t : State} (hs : s.rsp.length ≤ d) (hstep : stepAt (some d) s = .next t) :
    t.rsp.length ≤ d := by
  rcases stepAt_cases hstep with ⟨-, rfl⟩ | ⟨e, rest, hnext, hperf⟩
  · exact hs
  · cases e with
    | command w =>
      have hroom : ¬ d ≤ s.rsp.length := by
        rw [← queueFull_some_iff, not_full_of_nextEvent_command hnext]
        simp
      obtain ⟨t', ht', -, vs, hrsp, hlen⟩ := acceptCommand_appendsResponse w (s.setInput rest)
      cases ht'.symm.trans hperf
      rw [hrsp, List.length_append, State.setInput_rsp]
      omega
    | take =>
      cases hperf
      rw [State.takeResponse_eq]
      exact (List.tail_sublist _).length_le.trans hs
    | reset =>
      cases hperf
      exact Nat.zero_le d

/-- Settles O25: room leaves the step as it is without a bound; a full queue lets a take pass the commands, or stops. -/
theorem queueBackPressureHoldsCommands : Obligations.QueueBackPressureHoldsCommands := by
  refine ⟨fun d s hroom => ?_, fun d w ws post s hfull hin => ?_, fun d w ws s hfull hin => ?_,
    fun d s t => stepAt_rsp_length_le⟩
  · rw [stepAt, nextEvent_of_not_full (by simpa [queueFull] using hroom), ← stepAt]
  · have htake : firstNonCommand s.input = some (.take, .command w :: (ws.map .command ++ post)) :=
      hin ▸ firstNonCommand_commands_take (w :: ws) post
    rw [stepAt, nextEvent_of_full ((queueFull_some_iff d _).mpr hfull) hin, htake]
    rfl
  · have hheld : firstNonCommand s.input = none := hin ▸ firstNonCommand_commands (w :: ws)
    rw [stepAt, nextEvent_of_full ((queueFull_some_iff d _).mpr hfull) hin, hheld]
    rfl

end Sys2Proof.Machine
end

section
/-! The table memory of the CRC engine: what its words hold (R33) and where they stand (R32). -/

namespace Sys2Proof.Machine

theorem step1Times_eq_iterate (n : Nat) (c : Word) : step1Times n c = step1^[n] c := by
  induction n generalizing c with
  | zero => rfl
  | succ n ih => exact ih (step1 c)

/-- The word at `k*256 + i` is `T_{7-k}[i]`: division by 256 gives back `k`, the remainder `i` (R32, R33). -/
theorem tab8_eq_tableT (k : Fin 8) (i : Byte) : tab8 k i = tableT (7 - k.val) i := by
  have hi := i.isLt
  have hdiv : (k.val * 256 + i.toNat) / 256 = k.val := by omega
  have hmod : (k.val * 256 + i.toNat) % 256 = i.toNat := by omega
  simp only [tab8, tab8Word, tab8Addr, hdiv, hmod, BitVec.ofNat_toNat, BitVec.setWidth_eq]

theorem tab8Addr_injective {k k' : Fin 8} {i i' : Byte} (h : tab8Addr k i = tab8Addr k' i') : k = k' ∧ i = i' := by
  have hval : k.val * 256 + i.toNat = k'.val * 256 + i'.toNat := congrArg Fin.val h
  have hi := i.isLt
  have hi' := i'.isLt
  exact ⟨Fin.ext (by omega), BitVec.eq_of_toNat_eq (by omega)⟩

/-- Settles O49: `T_0` is an iterate of `step1`, and `TAB8` is read through `tab8_eq_tableT`. -/
theorem tableContentsAsDefined : Obligations.TableContentsAsDefined :=
  ⟨fun _ => rfl, fun b => step1Times_eq_iterate 8 (zext32 b), fun _ _ _ => rfl, fun _ => rfl, tab8_eq_tableT⟩

/-- Settles O50: an address is a number below 2048, and no two pairs share one. -/
theorem tableAddressesInRange : Obligations.TableAddressesInRange :=
  ⟨fun k i => ⟨rfl, Nat.le_of_lt_succ (tab8Addr k i).isLt, rfl⟩, fun _ _ _ _ => tab8Addr_injective⟩

end Sys2Proof.Machine
end

section
/-! The commands by engine: which they are, what a data command is in one equation, and that the commands of one engine neither
read nor write the other's part of the state (R42, R51; D23). -/

namespace Sys2Proof.Machine

theorem isCrcCommand_cases {i : Instr} (hi : isCrcCommand i = true) :
    (∃ v, i = .crcBegin v) ∨ (∃ bytes, crcBeatBytes i = some bytes) ∨ i = .crcEnd := by
  cases i with
  | crcBegin v => exact .inl ⟨v, rfl⟩
  | crcEnd => exact .inr (.inr rfl)
  | crcD1 | crcD2 | crcD3 | crcD4 | crcD5 | crcD6 | crcD7 | crcD8 => exact .inr (.inl ⟨_, rfl⟩)
  | _ => simp [isCrcCommand, opUnit, opcodeOf] at hi

theorem isAdlCommand_cases {i : Instr} (hi : isAdlCommand i = true) :
    (∃ v, i = .adlBegin v) ∨ (∃ bytes, adlBeatBytes i = some bytes) ∨ i = .adlEnd := by
  cases i with
  | adlBegin v => exact .inl ⟨v, rfl⟩
  | adlEnd => exact .inr (.inr rfl)
  | adlD1 | adlD2 | adlD3 | adlD4 | adlD5 | adlD6 | adlD7 | adlD8 => exact .inr (.inl ⟨_, rfl⟩)
  | _ => simp [isAdlCommand, opUnit, opcodeOf] at hi

/-- A command is one of the two system commands or belongs to an engine (R51, R135). -/
theorem sysCommand_or_engineCommand (i : Instr) :
    i = .sysNop ∨ i = .sysRdstat ∨ isCrcCommand i = true ∨ isAdlCommand i = true := by
  cases i <;> simp [isCrcCommand, isAdlCommand, opUnit, opcodeOf]

theorem exec_eq_crcBeat {i : Instr} {bytes : List Byte} (h : crcBeatBytes i = some bytes) (s : State) :
    exec i s = crcBeat (opcodeOf i) bytes s := by
  cases i with
  | crcD1 | crcD2 | crcD3 | crcD4 | crcD5 | crcD6 | crcD7 | crcD8 => cases h; rfl
  | _ => cases h

theorem exec_eq_adlBeat {i : Instr} {bytes : List Byte} (h : adlBeatBytes i = some bytes) (s : State) :
    exec i s = adlBeat (opcodeOf i) bytes s := by
  cases i with
  | adlD1 | adlD2 | adlD3 | adlD4 | adlD5 | adlD6 | adlD7 | adlD8 => cases h; rfl
  | _ => cases h

/-- The CRC engine's part of the state. -/
structure CrcPart where
  r : Word
  isOpen : Bool
  sel : Selection

/-- The ADL engine's part of the state. -/
structure AdlPart where
  regs : AdlRegs
  isOpen : Bool
  sel : Selection

def State.crcPart (s : State) : CrcPart := ⟨s.crcR, s.crcOpen, s.crcSel⟩

def State.adlPart (s : State) : AdlPart := ⟨s.adlRegs, s.adlOpen, s.adlSel⟩

/-- An effect of the engine whose part of the state is `own`: what becomes of that part depends on it alone, and the part `other`,
the error flags and the host's list are left alone. -/
structure LocalEffect {α β : Type} (own : State → α) (other : State → β) (change : α → α) (effect : State → State) : Prop where
  own_eq : ∀ s, own (effect s) = change (own s)
  other_eq : ∀ s, other (effect s) = other s
  errIll_eq : ∀ s, (effect s).errIll = s.errIll
  errSeq_eq : ∀ s, (effect s).errSeq = s.errSeq
  setInput_eq : ∀ s es, effect (s.setInput es) = (effect s).setInput es

/-- A command of the engine whose part of the state is `own`: a sequence check that reads that part alone, and a local effect. -/
def LocalCommand {α β : Type} (own : State → α) (other : State → β) (run : State → Result) : Prop :=
  ∃ (accepts : α → Bool) (change : α → α) (op : Byte) (effect : State → State),
    (∀ s, run s = sequenced (accepts (own s)) op effect s) ∧ LocalEffect own other change effect

theorem localCommand_of_isCrcCommand {i : Instr} (hi : isCrcCommand i = true) :
    LocalCommand State.crcPart State.adlPart (exec i) := by
  rcases isCrcCommand_cases hi with ⟨v, rfl⟩ | ⟨bytes, hbytes⟩ | rfl
  · exact ⟨fun p => !p.isOpen, fun p => ⟨~~~v, true, resolveSelection Config.kernelsCrc Config.cap p.sel⟩, 0x10, _, fun _ => rfl,
      ⟨fun _ => rfl, fun _ => rfl, fun _ => rfl, fun _ => rfl, fun _ _ => rfl⟩⟩
  · exact ⟨CrcPart.isOpen, fun p => { p with r := crcFold p.r bytes }, _, fun s => s.setCrcR (crcFold s.crcR bytes),
      exec_eq_crcBeat hbytes, ⟨fun _ => rfl, fun _ => rfl, fun _ => rfl, fun _ => rfl, fun _ _ => rfl⟩⟩
  · exact ⟨CrcPart.isOpen, fun p => { p with isOpen := false }, 0x19, _, fun _ => rfl,
      ⟨fun _ => rfl, fun _ => rfl, fun _ => rfl, fun _ => rfl, fun _ _ => rfl⟩⟩

theorem localCommand_of_isAdlCommand {i : Instr} (hi : isAdlCommand i = true) :
    LocalCommand State.adlPart State.crcPart (exec i) := by
  rcases isAdlCommand_cases hi with ⟨v, rfl⟩ | ⟨bytes, hbytes⟩ | rfl
  · exact ⟨fun p => !p.isOpen, fun p => ⟨adlLoad v, true, resolveSelection Config.kernelsAdl Config.cap p.sel⟩, 0x20, _, fun _ => rfl,
      ⟨fun _ => rfl, fun _ => rfl, fun _ => rfl, fun _ => rfl, fun _ _ => rfl⟩⟩
  · exact ⟨AdlPart.isOpen, fun p => { p with regs := adlFoldBytes p.regs bytes }, _,
      fun s => s.setAdlRegs (adlFoldBytes s.adlRegs bytes),
      exec_eq_adlBeat hbytes, ⟨fun _ => rfl, fun _ => rfl, fun _ => rfl, fun _ => rfl, fun _ _ => rfl⟩⟩
  · exact ⟨AdlPart.isOpen, fun p => { p with regs := adlFinish p.regs, isOpen := false }, 0x29, _, fun _ => rfl,
      ⟨fun _ => rfl, fun _ => rfl, fun _ => rfl, fun _ => rfl, fun _ _ => rfl⟩⟩

end Sys2Proof.Machine
end

section
/-! Commands of the two engines commute, up to the order of responses and the opcode of the first error (R42; D23). -/

namespace Sys2Proof.Machine

/-- What a local command does, accepted or not: it answers, its part is a function of that part, and whether it raises too. -/
theorem LocalCommand.outcome {α β : Type} {own : State → α} {other : State → β} {run : State → Result}
    (h : LocalCommand own other run) (hown : ∀ s op, own (s.raiseError .sequenceError op) = own s)
    (hother : ∀ s op, other (s.raiseError .sequenceError op) = other s) :
    ∃ (next : α → α) (raises : α → Bool), ∀ s, ∃ t, run s = .next t ∧ own t = next (own s) ∧ other t = other s ∧
      t.errIll = s.errIll ∧ t.errSeq = (s.errSeq || raises (own s)) := by
  obtain ⟨accepts, change, op, effect, hrun, heff⟩ := h
  refine ⟨fun a => if accepts a then change a else a, fun a => !accepts a, fun s => ?_⟩
  rw [hrun]
  cases hok : accepts (own s) with
  | true => exact ⟨_, rfl, by simp [heff.own_eq, hok], heff.other_eq s, heff.errIll_eq s, by simp [heff.errSeq_eq, hok]⟩
  | false => exact ⟨_, rfl, by simp [hown, hok], hother s op, by simp, by simp [hok]⟩

/-- Settles O48: each command finds its own part as if the other had not run, and both error flags are disjunctions. -/
theorem enginesCommute : Obligations.EnginesCommute := by
  intro i j s hi hj
  obtain ⟨crcNext, crcRaises, hcrc⟩ := (localCommand_of_isCrcCommand hi).outcome (fun _ _ => rfl) (fun _ _ => rfl)
  obtain ⟨adlNext, adlRaises, hadl⟩ := (localCommand_of_isAdlCommand hj).outcome (fun _ _ => rfl) (fun _ _ => rfl)
  obtain ⟨a', hia, ha'crc, ha'adl, ha'ill, ha'seq⟩ := hcrc s
  obtain ⟨a, hja, haadl, hacrc, haill, haseq⟩ := hadl a'
  obtain ⟨b', hjb, hb'adl, hb'crc, hb'ill, hb'seq⟩ := hadl s
  obtain ⟨b, hib, hbcrc, hbadl, hbill, hbseq⟩ := hcrc b'
  have hcrcPart : a.crcPart = b.crcPart := by rw [hacrc, ha'crc, hbcrc, hb'crc]
  have hadlPart : a.adlPart = b.adlPart := by rw [haadl, ha'adl, hbadl, hb'adl]
  refine ⟨a, b, (runCommands_cons hia [j]).trans (runCommands_cons hja []),
    (runCommands_cons hjb [i]).trans (runCommands_cons hib []),
    congrArg CrcPart.r hcrcPart, congrArg CrcPart.isOpen hcrcPart, congrArg CrcPart.sel hcrcPart,
    congrArg AdlPart.regs hadlPart, congrArg AdlPart.isOpen hadlPart, congrArg AdlPart.sel hadlPart, ?_, ?_⟩
  · rw [haill, ha'ill, hbill, hb'ill]
  · rw [haseq, ha'seq, ha'adl, hbseq, hb'seq, hb'crc, Bool.or_right_comm]

end Sys2Proof.Machine
end

section
/-! Running the machine over offered command words is running the commands (R16, R42, R50, R60). -/

namespace Sys2Proof

open Machine

/-- The opcode of a command has its row in the table, and that row reads the command's operands back (R56). -/
theorem lookupOpcode_opcodeOf (i : Instr) : ∃ operands, lookupOpcode (opcodeOf i) = some operands ∧ operands (dataOf i) = i := by
  cases i <;> exact ⟨_, rfl, by simp [dataOf, byteAt_packBytes_zero, byteAt_packBytes_succ]⟩

theorem decode_encode (i : Instr) : decode (encode i) = .command i := by
  obtain ⟨operands, hrow, hi⟩ := lookupOpcode_opcodeOf i
  rw [encode, decode_of_lookup hrow, hi]

end Sys2Proof

namespace Sys2Proof.Machine

/-- A command of an engine neither reads nor writes what the host does next (R16). -/
theorem LocalCommand.setInput {α β : Type} {own : State → α} {other : State → β} {run : State → Result}
    (h : LocalCommand own other run) (hown : ∀ s es, own (s.setInput es) = own s) (s : State) :
    ∃ t, run s = .next t ∧ ∀ es, run (s.setInput es) = .next (t.setInput es) := by
  obtain ⟨accepts, change, op, effect, hrun, heff⟩ := h
  simp only [hrun, hown]
  cases accepts (own s) with
  | true => exact ⟨_, rfl, fun es => congrArg _ (heff.setInput_eq s es)⟩
  | false => exact ⟨_, rfl, fun _ => rfl⟩

/-- No command reads or writes what the host does next (R16). -/
theorem exec_setInput (i : Instr) (s : State) :
    ∃ t, exec i s = .next t ∧ ∀ es, exec i (s.setInput es) = .next (t.setInput es) := by
  rcases sysCommand_or_engineCommand i with rfl | rfl | hcrc | hadl
  · exact ⟨s, rfl, fun _ => rfl⟩
  · exact ⟨_, rfl, fun _ => rfl⟩
  · exact (localCommand_of_isCrcCommand hcrc).setInput (fun _ _ => rfl) s
  · exact (localCommand_of_isAdlCommand hadl).setInput (fun _ _ => rfl) s

/-- The step takes the first offered word and executes its command, the other words still offered (R50, R60). -/
theorem step_offered_cons (i : Instr) (ws : List CmdWord) (s : State) :
    step (offered (encode i :: ws) s) = exec i (offered ws s) := by
  have hinput : (offered (encode i :: ws) s).input = .command (encode i) :: ws.map .command := rfl
  rw [step_of_input hinput, perform, acceptCommand, decode_encode]
  rfl

theorem run_succ_of_step {s t : State} (h : step s = .next t) (k : Nat) :
    Host.Core.run core (k + 1) s = Host.Core.run core k t := by
  have hcore : core.step s = .next t := h
  simp only [Host.Core.run, hcore]

/-- Settles O24, by induction on the commands: each step is one command, which leaves the words after it offered. -/
theorem wordsRunAsTheirCommands : Obligations.WordsRunAsTheirCommands := by
  intro is
  induction is with
  | nil => exact fun s => rfl
  | cons i is ih =>
    intro s
    obtain ⟨t, -, ht⟩ := exec_setInput i s
    have hstep : step (offered ((i :: is).map encode) s) = .next (offered (is.map encode) t) :=
      (step_offered_cons i (is.map encode) s).trans (ht _)
    rw [runCommands_cons (ht []), ← ih t]
    exact run_succ_of_step hstep is.length

end Sys2Proof.Machine
end

section
/-! Lists of commands as one fold of the bytes they carry: beats alone, and beats among other commands (R36, R42). -/

namespace Sys2Proof.Machine

@[simp] theorem bytesOf_nil (beat : Instr → Option (List Byte)) : bytesOf beat [] = [] := rfl

@[simp] theorem bytesOf_cons (beat : Instr → Option (List Byte)) (i : Instr) (is : List Instr) :
    bytesOf beat (i :: is) = (beat i).getD [] ++ bytesOf beat is := rfl

theorem allBeats_iff (beat : Instr → Option (List Byte)) (is : List Instr) :
    allBeats beat is = true ↔ ∀ i ∈ is, (beat i).isSome = true :=
  List.all_eq_true

theorem exec_crcBeat_of_open {i : Instr} {bytes : List Byte} (h : crcBeatBytes i = some bytes) {s : State}
    (hopen : s.crcOpen = true) : exec i s = .next (s.setCrcR (crcFold s.crcR bytes)) := by
  rw [exec_eq_crcBeat h, crcBeat, hopen, sequenced_true]

theorem exec_adlBeat_of_open {i : Instr} {bytes : List Byte} (h : adlBeatBytes i = some bytes) {s : State}
    (hopen : s.adlOpen = true) : exec i s = .next (s.setAdlRegs (adlFoldBytes s.adlRegs bytes)) := by
  rw [exec_eq_adlBeat h, adlBeat, hopen, sequenced_true]

/-- While the engine is open, each allowed command folds the bytes it carries into what `view` sees, none if it is no beat, and
leaves the engine open. -/
structure FoldsBytes {α : Type} (beat : Instr → Option (List Byte)) (isOpen : State → Bool) (allowed : Instr → Prop)
    (view : State → α) (fold : α → List Byte → α) : Prop where
  fold_nil : ∀ c, fold c [] = c
  fold_append : ∀ c a b, fold c (a ++ b) = fold (fold c a) b
  step : ∀ i s, allowed i → isOpen s = true →
    ∃ t, exec i s = .next t ∧ isOpen t = true ∧ view t = fold (view s) ((beat i).getD [])

section
variable {α : Type} {beat : Instr → Option (List Byte)} {isOpen : State → Bool} {allowed : Instr → Prop} {view : State → α}
  {fold : α → List Byte → α} (h : FoldsBytes beat isOpen allowed view fold) {is : List Instr} (hall : ∀ i ∈ is, allowed i)
include h hall

/-- What holds of every single command holds of a list of them. -/
theorem FoldsBytes.runCommands {s : State} (hopen : isOpen s = true) :
    ∃ t, runCommands is s = .next t ∧ isOpen t = true ∧ view t = fold (view s) (bytesOf beat is) := by
  induction is generalizing s with
  | nil => exact ⟨s, rfl, hopen, (h.fold_nil _).symm⟩
  | cons i is ih =>
    obtain ⟨hi, his⟩ := List.forall_mem_cons.mp hall
    obtain ⟨s', hexec, hopen', hview'⟩ := h.step i s hi hopen
    obtain ⟨t, hrun, hopent, hviewt⟩ := ih his hopen'
    refine ⟨t, (runCommands_cons hexec is).trans hrun, hopent, ?_⟩
    rw [hviewt, hview', bytesOf_cons, h.fold_append]

/-- The same after a first command that leaves the engine open. -/
theorem FoldsBytes.runCommands_cons {i : Instr} {s s' : State} (hexec : exec i s = .next s') (hopen : isOpen s' = true) :
    ∃ t, Machine.runCommands (i :: is) s = .next t ∧ isOpen t = true ∧ view t = fold (view s') (bytesOf beat is) := by
  rw [Machine.runCommands_cons hexec]
  exact h.runCommands hall hopen

end

/-- A beat of the CRC engine folds its bytes into the whole state (R72 to R79). -/
theorem crcBeats_foldsBytes : FoldsBytes crcBeatBytes State.crcOpen (fun i => (crcBeatBytes i).isSome = true) id
    fun s bytes => s.setCrcR (crcFold s.crcR bytes) where
  fold_nil _ := rfl
  fold_append s a b := congrArg (State.setCrcR · s) (crcFold_append s.crcR a b)
  step i s hbeat hopen := by
    obtain ⟨bytes, hbytes⟩ := Option.isSome_iff_exists.mp hbeat
    exact ⟨_, exec_crcBeat_of_open hbytes hopen, hopen, by rw [hbytes]; rfl⟩

/-- A beat of the ADL engine folds its bytes into the whole state (R102 to R109). -/
theorem adlBeats_foldsBytes : FoldsBytes adlBeatBytes State.adlOpen (fun i => (adlBeatBytes i).isSome = true) id
    fun s bytes => s.setAdlRegs (adlFoldBytes s.adlRegs bytes) where
  fold_nil _ := rfl
  fold_append s a b := congrArg (State.setAdlRegs · s) (adlFoldBytes_append s.adlRegs a b)
  step i s hbeat hopen := by
    obtain ⟨bytes, hbytes⟩ := Option.isSome_iff_exists.mp hbeat
    exact ⟨_, exec_adlBeat_of_open hbytes hopen, hopen, by rw [hbytes]; rfl⟩

/-- On an open engine a list of CRC beats writes `crc_r` once with all its bytes folded. -/
theorem runCommands_crcBeats {is : List Instr} {s : State} (hbeats : allBeats crcBeatBytes is = true)
    (hopen : s.crcOpen = true) : runCommands is s = .next (s.setCrcR (crcFold s.crcR (bytesOf crcBeatBytes is))) := by
  obtain ⟨t, hrun, -, rfl⟩ := crcBeats_foldsBytes.runCommands ((allBeats_iff _ _).mp hbeats) hopen
  exact hrun

/-- On an open engine a list of ADL beats writes the three registers once with all its bytes folded. -/
theorem runCommands_adlBeats {is : List Instr} {s : State} (hbeats : allBeats adlBeatBytes is = true)
    (hopen : s.adlOpen = true) : runCommands is s = .next (s.setAdlRegs (adlFoldBytes s.adlRegs (bytesOf adlBeatBytes is))) := by
  obtain ⟨t, hrun, -, rfl⟩ := adlBeats_foldsBytes.runCommands ((allBeats_iff _ _).mp hbeats) hopen
  exact hrun

/-- Settles O47: the state after a list of beats is named by the bytes alone. -/
theorem beatPartitionDoesNotMatter : Obligations.BeatPartitionDoesNotMatter := by
  refine ⟨fun xs ys s hxs hys hbytes hopen => ?_, fun xs ys s hxs hys hbytes hopen => ?_⟩
  · exact ⟨_, runCommands_crcBeats hxs hopen, hbytes ▸ runCommands_crcBeats hys hopen⟩
  · exact ⟨_, runCommands_adlBeats hxs hopen, hbytes ▸ runCommands_adlBeats hys hopen⟩

end Sys2Proof.Machine
end

section
/-! One operation of the ADL engine computes `adler32`, whatever the chunk bound (R101, R110, R111, R116). -/

namespace Sys2Proof.Machine

theorem byteSum_concat (bytes : List Byte) (b : Byte) : byteSum (bytes ++ [b]) = byteSum bytes + b.toNat := by
  induction bytes with
  | nil => simp [byteSum]
  | cons x xs ih => simp only [List.cons_append, byteSum, ih]; omega

theorem weightedByteSum_concat (bytes : List Byte) (b : Byte) :
    weightedByteSum (bytes ++ [b]) = weightedByteSum bytes + (byteSum bytes + b.toNat) := by
  induction bytes with
  | nil => simp [weightedByteSum, byteSum]
  | cons x xs ih =>
    simp only [List.cons_append, weightedByteSum, byteSum, ih, List.length_append, List.length_singleton]
    ring

/-- One more byte enters the sum once (R111). -/
theorem adlerS1_concat (v : Word) (bytes : List Byte) (b : Byte) : adlerS1 v (bytes ++ [b]) = adlerS1 v bytes + b.toNat := by
  rw [adlerS1, adlerS1, byteSum_concat, Nat.add_assoc]

/-- One more byte adds the new sum to the sum of sums (R111). -/
theorem adlerS2_concat (v : Word) (bytes : List Byte) (b : Byte) :
    adlerS2 v (bytes ++ [b]) = adlerS2 v bytes + (adlerS1 v bytes + b.toNat) := by
  simp only [adlerS2, adlerS1, weightedByteSum_concat, List.length_append, List.length_singleton]
  ring

theorem adlMod_toNat (v : Word) : (adlMod v).toNat = v.toNat % 65521 := BitVec.toNat_umod

theorem packHalves_halves (v : Word) : packHalves (highHalf v) (lowHalf v) = v := by
  refine BitVec.eq_of_getLsbD_eq fun i hi => ?_
  by_cases h : i < 16
  · simp [packHalves, highHalf, lowHalf, h, hi]
  · simp [packHalves, highHalf, lowHalf, h, hi, show i - 16 < 16 by omega, show 16 + (i - 16) = i by omega]

/-- The registers during an operation under chunk bound `m`: both sums agree with R111's modulo 65521 and stay within R14's
bounds, the counter stays below the bound, and it is 0 after the first byte only where the sums have just been reduced. -/
structure AdlTracks (m : Nat) (v : Word) (bytes : List Byte) (r : AdlRegs) : Prop where
  bounded : r.Bounded
  s1_mod : r.s1.toNat % 65521 = adlerS1 v bytes % 65521
  s2_mod : r.s2.toNat % 65521 = adlerS2 v bytes % 65521
  cnt_lt : r.cnt.toNat < m
  reduced : bytes ≠ [] → r.cnt = 0 → r.s1.toNat < 65521 ∧ r.s2.toNat < 65521

section
variable {m : Nat} (hpos : 1 ≤ m) (hmax : m ≤ 5552) {v : Word} {bytes : List Byte} {r : AdlRegs}

include hpos in
theorem adlLoad_tracks : AdlTracks m v [] (adlLoad v) where
  bounded := adlLoad_bounded v
  s1_mod := rfl
  s2_mod := by simp [adlLoad, adlerS2, weightedByteSum]
  cnt_lt := hpos
  reduced h := absurd rfl h

include hpos hmax in
/-- A byte adds to both sums; the one that ends the chunk also reduces them (R101). -/
theorem AdlTracks.adlFoldWith (h : AdlTracks m v bytes r) (b : Byte) :
    AdlTracks m v (bytes ++ [b]) (adlFoldWith m r b) := by
  have hs1 := h.bounded.s1_add_toNat b
  have hs2 := h.bounded.s2_add_toNat b
  have hcnt := h.bounded.cnt_add_one_toNat
  have hS1 := adlerS1_concat v bytes b
  have hS2 := adlerS2_concat v bytes b
  have hfold := h.bounded.adlFold b
  obtain ⟨-, hmod1, hmod2, hlt, -⟩ := h
  rcases adlFoldWith_cases m r b with ⟨hend, heq⟩ | ⟨hend, heq⟩ <;> rw [heq]
  · exact {
      bounded := adlReduce_bounded _
      s1_mod := by simp only [adlReduce, adlMod_toNat]; omega
      s2_mod := by simp only [adlReduce, adlMod_toNat]; omega
      cnt_lt := hpos
      reduced := fun _ _ => ⟨Nat.lt_succ_of_le (adlMod_toNat_le _), Nat.lt_succ_of_le (adlMod_toNat_le _)⟩ }
  · have hcnt_ne : r.cnt + 1 ≠ 0 := fun hzero => Nat.succ_ne_zero _ (hcnt.symm.trans (congrArg BitVec.toNat hzero))
    have hsame : adlFold r b = ⟨r.s1 + zext32 b, r.s2 + (r.s1 + zext32 b), r.cnt + 1⟩ :=
      if_neg (by simp only [Config.adlerChunkMax]; omega)
    exact {
      bounded := hsame ▸ hfold
      s1_mod := by simp only; omega
      s2_mod := by simp only; omega
      cnt_lt := by simp only; omega
      reduced := fun _ hzero => absurd hzero hcnt_ne }

include hpos hmax in
theorem foldl_adlFoldWith_tracks (v : Word) (bytes : List Byte) :
    AdlTracks m v bytes (bytes.foldl (adlFoldWith m) (adlLoad v)) := by
  induction bytes using List.reverseRecOn with
  | nil => exact adlLoad_tracks hpos
  | append_singleton bytes b ih =>
    rw [List.foldl_concat]
    exact ih.adlFoldWith hpos hmax b

/-- After `ADL.END`'s reduction, which a sum at counter 0 does not need, both sums are R111's modulo 65521 (R110). -/
theorem AdlTracks.adlFinish_toNat (h : AdlTracks m v bytes r) (hne : bytes ≠ []) :
    (adlFinish r).s1.toNat = adlerS1 v bytes % Config.adlerMod ∧
      (adlFinish r).s2.toNat = adlerS2 v bytes % Config.adlerMod := by
  by_cases hcnt : r.cnt = 0
  · obtain ⟨hlt1, hlt2⟩ := h.reduced hne hcnt
    rw [adlFinish, if_neg (not_not.mpr hcnt)]
    exact ⟨(Nat.mod_eq_of_lt hlt1).symm.trans h.s1_mod, (Nat.mod_eq_of_lt hlt2).symm.trans h.s2_mod⟩
  · rw [adlFinish, if_pos hcnt, adlReduce, adlMod_toNat, adlMod_toNat]
    exact ⟨h.s1_mod, h.s2_mod⟩

include hpos hmax in
/-- The response of one operation, for every chunk bound of R116. -/
theorem adlOperationWith_eq_adler32 (v : Word) (bytes : List Byte) : adlOperationWith m v bytes = adler32 v bytes := by
  by_cases hne : bytes = []
  · subst hne
    exact packHalves_halves v
  · obtain ⟨hs1, hs2⟩ := (foldl_adlFoldWith_tracks hpos hmax v bytes).adlFinish_toNat hne
    rw [adlOperationWith, adlResponse, adler32, if_neg hne, ← hs1, ← hs2]
    simp only [BitVec.ofNat_toNat, BitVec.setWidth_eq]

end

/-- The block's own chunk bound is one of them (R101). -/
theorem adlResponse_adlFoldBytes (v : Word) (bytes : List Byte) :
    adlResponse (adlFoldBytes (adlLoad v) bytes) = adler32 v bytes :=
  adlOperationWith_eq_adler32 (m := Config.adlerChunkMax) (by decide) (by decide) v bytes

end Sys2Proof.Machine
end

section
/-! One engine's operation with any commands of the other engine, and SYS commands, in between (R42, R66; D23). -/

namespace Sys2Proof.Machine

open Stated

theorem exec_crcBegin_of_closed (v : Word) {s : State} (hclosed : s.crcOpen = false) :
    exec (.crcBegin v) s =
      .next (((s.setCrcSel (resolveSelection Config.kernelsCrc Config.cap s.crcSel)).setCrcR (~~~v)).setCrcOpen true) := by
  rw [exec, execCrcBegin, hclosed, Bool.not_false, sequenced_true]

theorem exec_crcEnd_of_open {s : State} (hopen : s.crcOpen = true) :
    exec .crcEnd s = .next ((s.respond (~~~s.crcR)).setCrcOpen false) := by
  rw [exec, execCrcEnd, hopen, sequenced_true]

theorem exec_adlBegin_of_closed (v : Word) {s : State} (hclosed : s.adlOpen = false) :
    exec (.adlBegin v) s =
      .next (((s.setAdlSel (resolveSelection Config.kernelsAdl Config.cap s.adlSel)).setAdlRegs (adlLoad v)).setAdlOpen true) := by
  rw [exec, execAdlBegin, hclosed, Bool.not_false, sequenced_true]

theorem exec_adlEnd_of_open {s : State} (hopen : s.adlOpen = true) :
    exec .adlEnd s = .next (((s.setAdlRegs (adlFinish s.adlRegs)).respond (adlResponse s.adlRegs)).setAdlOpen false) := by
  rw [exec, execAdlEnd, hopen, sequenced_true]

/-- No command but the CRC engine's own changes `crc_r`, and none but `BEGIN` and `END` the open flag. -/
theorem crcInterleaved_foldsBytes :
    FoldsBytes crcBeatBytes State.crcOpen (fun i => opcodeOf i ≠ 0x10 ∧ opcodeOf i ≠ 0x19) State.crcR crcFold where
  fold_nil := crcFold_nil
  fold_append := crcFold_append
  step i s hi hopen := by
    obtain ⟨hbegin, hend⟩ := hi
    cases hbeat : crcBeatBytes i with
    | some bytes => exact ⟨_, exec_crcBeat_of_open hbeat hopen, hopen, rfl⟩
    | none =>
      obtain ⟨t, ht, hcrcR, hcrcOpen, -⟩ := eachRegisterWrittenOnlyByItsCommands i s
      exact ⟨t, ht, (hcrcOpen hbegin hend).trans hopen, hcrcR (by simpa [writesCrcR, hbeat] using hbegin)⟩

/-- No command but the ADL engine's own changes the three registers, and none but `BEGIN` and `END` the open flag. -/
theorem adlInterleaved_foldsBytes :
    FoldsBytes adlBeatBytes State.adlOpen (fun i => opcodeOf i ≠ 0x20 ∧ opcodeOf i ≠ 0x29) State.adlRegs adlFoldBytes where
  fold_nil := adlFoldBytes_nil
  fold_append := adlFoldBytes_append
  step i s hi hopen := by
    obtain ⟨hbegin, hend⟩ := hi
    cases hbeat : adlBeatBytes i with
    | some bytes => exact ⟨_, exec_adlBeat_of_open hbeat hopen, hopen, rfl⟩
    | none =>
      obtain ⟨t, ht, -, -, -, hregs, hadlOpen, -⟩ := eachRegisterWrittenOnlyByItsCommands i s
      obtain ⟨hs1, hs2, hcnt⟩ := hregs (by simpa [writesAdlRegs, hbeat] using And.intro hbegin hend)
      exact ⟨t, ht, (hadlOpen hbegin hend).trans hopen, by rw [State.adlRegs, hs1, hs2, hcnt]; rfl⟩

/-- Settles O33: between `BEGIN` and `END` the engine's registers are the fold of its own bytes, whatever else runs. -/
theorem interleavedOperationsKeepTheirResults : Obligations.InterleavedOperationsKeepTheirResults := by
  refine ⟨fun v mid s hclosed hmid => ?_, fun v mid s hclosed hmid => ?_⟩
  · obtain ⟨t, hrun, hopen, hfold⟩ := crcInterleaved_foldsBytes.runCommands_cons hmid (exec_crcBegin_of_closed v hclosed) rfl
    refine ⟨t, _, hrun, exec_crcEnd_of_open hopen, ?_⟩
    simp [hfold, crc32]
  · obtain ⟨t, hrun, hopen, hfold⟩ := adlInterleaved_foldsBytes.runCommands_cons hmid (exec_adlBegin_of_closed v hclosed) rfl
    refine ⟨t, _, hrun, exec_adlEnd_of_open hopen, ?_⟩
    simp [hfold, adlResponse_adlFoldBytes]

end Sys2Proof.Machine
end

section
/-! The data field of a command bit by bit, and the decoder over every opcode byte (R51 to R57, R60). -/

namespace Sys2Proof.Machine

open Stated

theorem reservedOpcode_eq_false_iff (op : Byte) : reservedOpcode op = false ↔ op ∈ opcodes := by
  revert op
  decide

theorem lookupOpcode_eq_none_iff (op : Byte) : lookupOpcode op = none ↔ op ∉ opcodes := by
  have hkeys : opcodes = opcodeTable.map Prod.fst := rfl
  rw [lookupOpcode, List.lookup_eq_none_iff, hkeys, List.mem_map]
  simp only [bne_iff_ne, not_exists, not_and]
  exact forall₂_congr fun _ _ => ne_comm

theorem exists_row_of_mem_opcodes {op : Byte} (h : op ∈ opcodes) : ∃ operands, lookupOpcode op = some operands :=
  Option.ne_none_iff_exists'.mp fun hnone => (lookupOpcode_eq_none_iff op).mp hnone h

theorem mem_opcodeTable_of_lookup {op : Byte} {operands : Data → Instr} (h : lookupOpcode op = some operands) :
    (op, operands) ∈ opcodeTable := by
  obtain ⟨before, after, htable, -⟩ := List.lookup_eq_some_iff.mp h
  rw [htable]
  exact List.mem_append_right before List.mem_cons_self

/-- The mask of the used bits is the number whose ones are as many as the bits counted (R53, R54, R55). -/
theorem usedMask_toNat (op : Byte) : (usedMask op).toNat = 2 ^ usedBitCount op - 1 := by
  revert op
  decide

theorem usedMask_getLsbD (op : Byte) (k : Nat) : (usedMask op).getLsbD k = decide (k < usedBitCount op) := by
  rw [← BitVec.testBit_toNat, usedMask_toNat, Nat.testBit_two_pow_sub_one]

/-- The ignored bits of a data field are zero when it is no larger than the used bits allow (R55). -/
theorem and_not_usedMask_eq_zero {op : Byte} {d : Data} (h : d.toNat ≤ (usedMask op).toNat) : d &&& ~~~usedMask op = 0 := by
  have hlt : d.toNat < 2 ^ usedBitCount op := by
    have hpos := Nat.two_pow_pos (usedBitCount op)
    have hmask := usedMask_toNat op
    omega
  refine BitVec.eq_of_getLsbD_eq fun k hk => ?_
  rw [BitVec.getLsbD_and, BitVec.getLsbD_not, usedMask_getLsbD, ← BitVec.testBit_toNat]
  by_cases hused : k < usedBitCount op
  · simp [hused]
  · rw [Nat.testBit_lt_two_pow (hlt.trans_le (Nat.pow_le_pow_right (by decide) (by omega)))]
    simp

/-- A data field whose ignored bits are zero is its own used part (R55). -/
theorem and_usedMask_eq_self {op : Byte} {d : Data} (h : d &&& ~~~usedMask op = 0) : d &&& usedMask op = d := by
  calc d &&& usedMask op = (d &&& usedMask op) ||| (d &&& ~~~usedMask op) := by rw [h]; exact BitVec.or_zero.symm
    _ = d := by rw [← BitVec.and_or_distrib_left, BitVec.or_not_self, BitVec.and_allOnes]

theorem packBytes_cons_getLsbD (b : Byte) (bs : List Byte) {k : Nat} (hk : k < 64) :
    (packBytes (b :: bs)).getLsbD k = if k < 8 then b.getLsbD k else (packBytes bs).getLsbD (k - 8) := by
  by_cases h : k < 8
  · simp [packBytes, h, hk]
  · simp [packBytes, h, hk, BitVec.getLsbD_of_ge b k (by omega), -BitVec.getLsbD_eq_getElem]

theorem packBytes_getLsbD_of_ge {bytes : List Byte} {k : Nat} (h : 8 * bytes.length ≤ k) :
    (packBytes bytes).getLsbD k = false := by
  induction bytes generalizing k with
  | nil => exact BitVec.getLsbD_zero
  | cons b bs ih =>
    rw [List.length_cons] at h
    by_cases hk : k < 64
    · rw [packBytes_cons_getLsbD b bs hk, if_neg (by omega), ih (by omega)]
    · exact BitVec.getLsbD_of_ge _ k (by omega)

theorem packBytes_toNat_lt (bytes : List Byte) : (packBytes bytes).toNat < 2 ^ (8 * bytes.length) :=
  Nat.lt_pow_two_of_testBit _ fun _ hk => packBytes_getLsbD_of_ge hk

/-- Packing `n` bytes of a data field, from byte `j` on, brings its bits from `8*j` on back (R35, R54). -/
theorem packBytes_map_byteAt_getLsbD (d : Data) (n j k : Nat) :
    (packBytes ((List.range' j n).map (byteAt d))).getLsbD k = (decide (k < 8 * n) && d.getLsbD (8 * j + k)) := by
  induction n generalizing j k with
  | zero => simp [packBytes]
  | succ n ih =>
    by_cases hk : k < 64
    · rw [List.range'_succ, List.map_cons, packBytes_cons_getLsbD _ _ hk]
      by_cases hlow : k < 8
      · simp [byteAt, hlow, show k < 8 * (n + 1) by omega]
      · rw [if_neg hlow, ih, show 8 * (j + 1) + (k - 8) = 8 * j + k by omega]
        simp only [show k - 8 < 8 * n ↔ k < 8 * (n + 1) by omega]
    · rw [BitVec.getLsbD_of_ge _ k (by omega), BitVec.getLsbD_of_ge d _ (by omega), Bool.and_false]

theorem packBytes_beatBytes_getLsbD (n : Nat) (d : Data) (k : Nat) :
    (packBytes (beatBytes n d)).getLsbD k = (decide (k < 8 * n) && d.getLsbD k) := by
  rw [beatBytes, List.range_eq_range', packBytes_map_byteAt_getLsbD, Nat.mul_zero, Nat.zero_add]

theorem stateData_stateOperand_getLsbD (d : Data) (k : Nat) :
    (stateData (stateOperand d)).getLsbD k = (decide (k < 32) && d.getLsbD k) := by
  by_cases h : k < 32
  · simp [stateData, stateOperand, h, show k < 64 by omega]
  · simp [stateData, stateOperand, h]

/-- Every row of the table cuts its operands from the used bits alone, and the command's data field puts them back where they
stood (R53, R54, R55). -/
theorem dataOf_row_getLsbD : ∀ row ∈ opcodeTable, ∀ (d : Data) (k : Nat),
    (dataOf (row.2 d)).getLsbD k = (decide (k < usedBitCount row.1) && d.getLsbD k) := by
  have unused (d : Data) (k : Nat) : (0 : Data).getLsbD k = (decide (k < 0) && d.getLsbD k) := by simp
  have state := stateData_stateOperand_getLsbD
  have beat := packBytes_beatBytes_getLsbD
  simp only [opcodeTable, List.forall_mem_cons]
  exact ⟨unused, unused,
    state, beat 1, beat 2, beat 3, beat 4, beat 5, beat 6, beat 7, beat 8, unused,
    state, beat 1, beat 2, beat 3, beat 4, beat 5, beat 6, beat 7, beat 8, unused, by simp⟩

theorem opcodeOf_row : ∀ row ∈ opcodeTable, ∀ d : Data, opcodeOf (row.2 d) = row.1 := by
  simp [opcodeTable, opcodeOf]

section
variable {op : Byte} {operands : Data → Instr} (h : lookupOpcode op = some operands)
include h

theorem opcodeOf_operands (d : Data) : opcodeOf (operands d) = op :=
  opcodeOf_row _ (mem_opcodeTable_of_lookup h) d

theorem dataOf_operands (d : Data) : dataOf (operands d) = d &&& usedMask op := by
  refine BitVec.eq_of_getLsbD_eq fun k _ => ?_
  rw [dataOf_row_getLsbD _ (mem_opcodeTable_of_lookup h), BitVec.getLsbD_and, usedMask_getLsbD, Bool.and_comm]

/-- The command depends on the used bits alone: it is read back from its own data field, which holds no others (R55). -/
theorem operands_and_usedMask (d : Data) : operands (d &&& usedMask op) = operands d := by
  obtain ⟨operands', hrow, hback⟩ := lookupOpcode_opcodeOf (operands d)
  rw [opcodeOf_operands h, h] at hrow
  cases hrow
  rwa [dataOf_operands h] at hback

end

/-- The data field of a command has its ignored bits zero (R55). -/
theorem dataOf_and_usedMask (i : Instr) : dataOf i &&& usedMask (opcodeOf i) = dataOf i := by
  obtain ⟨operands, hrow, hback⟩ := lookupOpcode_opcodeOf i
  rw [← dataOf_operands hrow, hback]

theorem opcodeOf_mem_opcodes (i : Instr) : opcodeOf i ∈ opcodes := by
  by_contra hmem
  obtain ⟨operands, hrow, -⟩ := lookupOpcode_opcodeOf i
  exact Option.some_ne_none operands (hrow.symm.trans ((lookupOpcode_eq_none_iff _).mpr hmem))

/-- Settles O16: each command's row reads the operands back from the encoded data field. -/
theorem decodeEncodeRoundTrip : Obligations.DecodeEncodeRoundTrip := decode_encode

/-- A canonical word is the encoding of a command of its opcode (R53, R54, R55). -/
theorem exists_encode_of_canonical {op : Byte} {d : Data} (hop : op ∈ opcodes) (hd : d &&& ~~~usedMask op = 0) :
    ∃ i, decode (cmdWord op d) = .command i ∧ encode i = cmdWord op d ∧ opcodeOf i = op := by
  obtain ⟨operands, hrow⟩ := exists_row_of_mem_opcodes hop
  refine ⟨operands d, decode_of_lookup hrow d, ?_, opcodeOf_operands hrow d⟩
  rw [encode, opcodeOf_operands hrow, dataOf_operands hrow, and_usedMask_eq_self hd]

theorem canonicalWord_cmdWord_iff (op : Byte) (d : Data) :
    canonicalWord (cmdWord op d) = true ↔ op ∈ opcodes ∧ d &&& ~~~usedMask op = 0 := by
  simp [canonicalWord, reservedOpcode_eq_false_iff]

/-- Settles O17: both clauses in terms of the two fields of the word. -/
theorem encodeDecodeOfCanonicalWords : Obligations.EncodeDecodeOfCanonicalWords := by
  refine ⟨fun w hw => ?_, fun i => ?_⟩
  · rw [← cmdWord_fields w, canonicalWord_cmdWord_iff] at hw
    obtain ⟨i, hdec, henc, -⟩ := exists_encode_of_canonical hw.1 hw.2
    rw [cmdWord_fields] at hdec henc
    exact ⟨i, hdec, henc⟩
  · rw [encode, canonicalWord_cmdWord_iff, ← dataOf_and_usedMask, BitVec.and_assoc, BitVec.and_not_self]
    exact ⟨opcodeOf_mem_opcodes i, BitVec.and_zero⟩

/-- Settles O18: the decoder answers the same for both words, so the port does. -/
theorem ignoredDataBitsHaveNoEffect : Obligations.IgnoredDataBitsHaveNoEffect := by
  refine ⟨fun op d d' s hagree => ?_, fun i k hk => ?_⟩
  · have hused : d &&& usedMask op = d' &&& usedMask op := by
      refine BitVec.eq_of_getLsbD_eq fun k _ => ?_
      rw [BitVec.getLsbD_and, BitVec.getLsbD_and, usedMask_getLsbD]
      by_cases hk : k < usedBitCount op
      · rw [hagree k hk]
      · simp [hk]
    have hdec : decode (cmdWord op d) = decode (cmdWord op d') := by
      cases hrow : lookupOpcode op with
      | none => rw [decode_of_lookup_none hrow, decode_of_lookup_none hrow]
      | some operands =>
        rw [decode_of_lookup hrow, decode_of_lookup hrow, ← operands_and_usedMask hrow, hused, operands_and_usedMask hrow]
    rw [acceptCommand, acceptCommand, hdec]
  · rw [encode, dataField_cmdWord, ← dataOf_and_usedMask, BitVec.getLsbD_and, usedMask_getLsbD]
    simp [hk]

/-- Settles O19: an opcode of the list has a row, and no other has. -/
theorem decodingIsTotalByOpcode : Obligations.DecodingIsTotalByOpcode := by
  intro w
  rw [← opField, ← cmdWord_fields w, opField_cmdWord]
  refine ⟨fun hop => ?_, fun hop => ?_⟩
  · obtain ⟨operands, hrow⟩ := exists_row_of_mem_opcodes hop
    exact ⟨_, decode_of_lookup hrow _, opcodeOf_operands hrow _⟩
  · exact decode_of_lookup_none ((lookupOpcode_eq_none_iff _).mpr hop) _

/-- Settles O20: the decoder run on each word. -/
theorem wordsWrittenOutDecode : Obligations.WordsWrittenOutDecode := by
  unfold Obligations.WordsWrittenOutDecode
  decide

end Sys2Proof.Machine
end

section
/-! The assembler's command lines are canonical words (R61, R64; log entry 16). -/

namespace Sys2Proof.Machine

open Stated

theorem usedBitCount_of_isDataCommand {op : Byte} (h : isDataCommand op = true) : usedBitCount op = 8 * (opFn op).toNat := by
  revert op
  decide

/-- A byte string of a data command fills no more than the bits the command uses (R54, R61). -/
theorem packBytes_toNat_le {op : Byte} {bytes : List Byte} (h : asmOperandWf op (.text bytes) = true) :
    (packBytes bytes).toNat ≤ (usedMask op).toNat := by
  simp only [asmOperandWf, Bool.and_eq_true, beq_iff_eq] at h
  obtain ⟨hdata, hlen⟩ := h
  rw [usedMask_toNat, usedBitCount_of_isDataCommand hdata, ← hlen]
  exact Nat.le_sub_one_of_lt (packBytes_toNat_lt bytes)

theorem operandData_toNat_le {op : Byte} {x : AsmOperand} (h : asmOperandWf op x = true) :
    (operandData x).toNat ≤ (usedMask op).toNat := by
  cases x with
  | absent => exact Nat.zero_le _
  | number n =>
    simp only [asmOperandWf, Bool.and_eq_true, decide_eq_true_eq] at h
    exact (Nat.mod_le n _).trans h.2
  | text bytes => exact packBytes_toNat_le h

theorem asmStatementWf_command_iff (op : Byte) (x : AsmOperand) :
    asmStatementWf (.command op x) = true ↔ reservedOpcode op = false ∧ asmOperandWf op x = true := by
  simp [asmStatementWf]

theorem assemble_command {op : Byte} {x : AsmOperand} (hop : reservedOpcode op = false) (hx : asmOperandWf op x = true) :
    assemble (.command op x) = some [cmdWord op (operandData x)] :=
  if_pos ((asmStatementWf_command_iff op x).mpr ⟨hop, hx⟩)

/-- The little-endian number of a byte string may stand for the string (R61). -/
theorem asmOperandWf_number_of_text {op : Byte} {bytes : List Byte} (h : asmOperandWf op (.text bytes) = true) :
    asmOperandWf op (.number (packBytes bytes).toNat) = true := by
  have hle := packBytes_toNat_le h
  simp only [asmOperandWf, isDataCommand, Bool.and_eq_true, decide_eq_true_eq] at h ⊢
  exact ⟨h.1.1, hle⟩

/-- Settles O58: a fitting operand leaves the ignored bits zero, so its word is canonical. -/
theorem assemblerWordsRoundTrip : Obligations.AssemblerWordsRoundTrip := by
  refine ⟨fun op x hwf => ?_, fun op bytes hwf hop => ⟨assemble_command hop hwf, ?_⟩, by decide⟩
  · obtain ⟨hop, hx⟩ := (asmStatementWf_command_iff op x).mp hwf
    obtain ⟨i, -, henc, hopcode⟩ := exists_encode_of_canonical ((reservedOpcode_eq_false_iff op).mp hop)
      (and_not_usedMask_eq_zero (operandData_toNat_le hx))
    exact ⟨i, by rw [henc, assemble_command hop hx], hopcode⟩
  · rw [assemble_command hop (asmOperandWf_number_of_text hwf), operandData, BitVec.ofNat_toNat, BitVec.setWidth_eq]

end Sys2Proof.Machine
end

section
/-! Which commands respond what (R65), and when a command raises (R142). -/

namespace Sys2Proof.Machine

open Stated

/-- The table of R142 in terms of the engine and its `BEGIN` opcode. -/
theorem outOfSequence_eq (i : Instr) (s : State) : outOfSequence i s =
    (isCrcCommand i && s.crcOpen == (opcodeOf i == 0x10) || isAdlCommand i && s.adlOpen == (opcodeOf i == 0x20)) := by
  cases i <;> simp [outOfSequence, isCrcCommand, isAdlCommand, opUnit, opcodeOf]

theorem responsesOf_of_outOfSequence {i : Instr} {s : State} (h : outOfSequence i s = true) : responsesOf i s = [] :=
  if_pos h

theorem responsesOf_of_silent {i : Instr} (s : State) (hrdstat : i ≠ .sysRdstat) (hcrc : i ≠ .crcEnd) (hadl : i ≠ .adlEnd) :
    responsesOf i s = [] := by
  simp [responsesOf, hrdstat, hcrc, hadl]

theorem ne_of_beat {beat : Instr → Option (List Byte)} {i j : Instr} {bytes : List Byte} (hi : beat i = some bytes)
    (hj : beat j = none) : i ≠ j := by
  rintro rfl
  cases hi.symm.trans hj

/-- Settles O52: the responses of each effect of `exec_cases`. -/
theorem exactlyThreeCommandsRespond : Obligations.ExactlyThreeCommandsRespond := by
  refine ⟨fun i s => ?_, fun w op s hdec => ?_⟩
  · rcases exec_cases i s with ⟨hraise, heq⟩ | ⟨rfl, heq⟩ | ⟨rfl, heq⟩ | ⟨v, rfl, -, heq⟩ | ⟨bytes, hbytes, -, heq⟩ | ⟨rfl, hopen, heq⟩ |
      ⟨v, rfl, -, heq⟩ | ⟨bytes, hbytes, -, heq⟩ | ⟨rfl, hopen, heq⟩ <;> refine ⟨_, heq, ?_⟩
    · have hout : outOfSequence i s = true := by simpa [outOfSequence_eq] using hraise
      simp [responsesOf_of_outOfSequence hout]
    · simp [responsesOf_of_silent]
    · simp [responsesOf, outOfSequence]
    · simp [responsesOf_of_silent]
    · rw [responsesOf_of_silent s (ne_of_beat hbytes rfl) (ne_of_beat hbytes rfl) (ne_of_beat hbytes rfl)]
      exact (List.append_nil _).symm
    · simp [responsesOf, outOfSequence, hopen]
    · simp [responsesOf_of_silent]
    · rw [responsesOf_of_silent s (ne_of_beat hbytes rfl) (ne_of_beat hbytes rfl) (ne_of_beat hbytes rfl)]
      exact (List.append_nil _).symm
    · simp [responsesOf, outOfSequence, hopen]
  · rw [acceptCommand, hdec]
    exact ⟨_, rfl, rfl⟩

end Sys2Proof.Machine
end

section
/-! The legal order of commands (R66): a run raises no error exactly along it, and the words of its automaton are the
concatenations of operations `BEGIN Dn* END` (R171). -/

namespace Sys2Proof.Machine

/-- One engine's automaton by the kinds of its commands; commands that are not `mine` leave it where it is (R66). -/
structure EngineOrder (order : Bool → Instr → Option Bool) (mine : Instr → Bool) (start : Word → Instr)
    (beat : Instr → Option (List Byte)) (finish : Instr) : Prop where
  mine_cases : ∀ {i}, mine i = true → (∃ v, i = start v) ∨ (∃ bytes, beat i = some bytes) ∨ i = finish
  order_other : ∀ {i} isOpen, mine i = false → order isOpen i = some isOpen
  order_start : ∀ isOpen v, order isOpen (start v) = if isOpen then none else some true
  order_beat : ∀ {i bytes} isOpen, beat i = some bytes → order isOpen i = if isOpen then some true else none
  order_finish : ∀ isOpen, order isOpen finish = if isOpen then some false else none

theorem crcEngineOrder : EngineOrder crcOrder isCrcCommand .crcBegin crcBeatBytes .crcEnd where
  mine_cases := isCrcCommand_cases
  order_other {i} isOpen hi := by
    cases i with
    | crcBegin | crcEnd | crcD1 | crcD2 | crcD3 | crcD4 | crcD5 | crcD6 | crcD7 | crcD8 =>
      simp [isCrcCommand, opUnit, opcodeOf] at hi
    | _ => rfl
  order_start _ _ := rfl
  order_beat {i _} isOpen hi := by
    cases i with
    | crcD1 | crcD2 | crcD3 | crcD4 | crcD5 | crcD6 | crcD7 | crcD8 => rfl
    | _ => cases hi
  order_finish _ := rfl

theorem adlEngineOrder : EngineOrder adlOrder isAdlCommand .adlBegin adlBeatBytes .adlEnd where
  mine_cases := isAdlCommand_cases
  order_other {i} isOpen hi := by
    cases i with
    | adlBegin | adlEnd | adlD1 | adlD2 | adlD3 | adlD4 | adlD5 | adlD6 | adlD7 | adlD8 =>
      simp [isAdlCommand, opUnit, opcodeOf] at hi
    | _ => rfl
  order_start _ _ := rfl
  order_beat {i _} isOpen hi := by
    cases i with
    | adlD1 | adlD2 | adlD3 | adlD4 | adlD5 | adlD6 | adlD7 | adlD8 => rfl
    | _ => cases hi
  order_finish _ := rfl

/-- A beat of one engine leaves the other's automaton where it is. -/
theorem adlOrder_of_crcBeat {i : Instr} {bytes : List Byte} (h : crcBeatBytes i = some bytes) (isOpen : Bool) :
    adlOrder isOpen i = some isOpen := by
  cases i with
  | crcD1 | crcD2 | crcD3 | crcD4 | crcD5 | crcD6 | crcD7 | crcD8 => rfl
  | _ => cases h

/-- A beat of one engine leaves the other's automaton where it is. -/
theorem crcOrder_of_adlBeat {i : Instr} {bytes : List Byte} (h : adlBeatBytes i = some bytes) (isOpen : Bool) :
    crcOrder isOpen i = some isOpen := by
  cases i with
  | adlD1 | adlD2 | adlD3 | adlD4 | adlD5 | adlD6 | adlD7 | adlD8 => rfl
  | _ => cases h

/-- Where a CRC command raises (`exec_cases`), the automaton has no move. -/
theorem crcOrder_eq_none {i : Instr} (hi : isCrcCommand i = true) : crcOrder (opcodeOf i == 0x10) i = none := by
  cases i with
  | crcBegin | crcEnd | crcD1 | crcD2 | crcD3 | crcD4 | crcD5 | crcD6 | crcD7 | crcD8 => rfl
  | _ => simp [isCrcCommand, opUnit, opcodeOf] at hi

/-- Where an ADL command raises (`exec_cases`), the automaton has no move. -/
theorem adlOrder_eq_none {i : Instr} (hi : isAdlCommand i = true) : adlOrder (opcodeOf i == 0x20) i = none := by
  cases i with
  | adlBegin | adlEnd | adlD1 | adlD2 | adlD3 | adlD4 | adlD5 | adlD6 | adlD7 | adlD8 => rfl
  | _ => simp [isAdlCommand, opUnit, opcodeOf] at hi

/-- Between `s` and `t` the automata, whose answers are given, and the machine agree: both moved to the open flags of `t` and no
error was raised, or one of them had no move and an error flag is set. -/
def FollowsOrder (crc adl : Option Bool) (s t : State) : Prop :=
  (t.anyError = s.anyError ∧ crc = some t.crcOpen ∧ adl = some t.adlOpen) ∨ (t.anyError = true ∧ (crc = none ∨ adl = none))

theorem exec_followsOrder (i : Instr) (s : State) :
    ∃ t, exec i s = .next t ∧ FollowsOrder (crcOrder s.crcOpen i) (adlOrder s.adlOpen i) s t := by
  rcases exec_cases i s with ⟨hraise, heq⟩ | ⟨rfl, heq⟩ | ⟨rfl, heq⟩ | ⟨v, rfl, hclosed, heq⟩ | ⟨bytes, hbytes, hopen, heq⟩ |
    ⟨rfl, hopen, heq⟩ | ⟨v, rfl, hclosed, heq⟩ | ⟨bytes, hbytes, hopen, heq⟩ | ⟨rfl, hopen, heq⟩ <;> refine ⟨_, heq, ?_⟩
  · refine .inr ⟨State.raiseError_anyError _ _ _, hraise.imp (fun h => ?_) (fun h => ?_)⟩
    · rw [h.2, crcOrder_eq_none h.1]
    · rw [h.2, adlOrder_eq_none h.1]
  · exact .inl ⟨rfl, rfl, rfl⟩
  · exact .inl ⟨rfl, rfl, rfl⟩
  · exact .inl ⟨rfl, by rw [hclosed]; rfl, rfl⟩
  · refine .inl ⟨rfl, ?_, adlOrder_of_crcBeat hbytes _⟩
    rw [crcEngineOrder.order_beat _ hbytes, State.setCrcR_crcOpen, hopen, if_pos rfl]
  · exact .inl ⟨rfl, by rw [hopen]; rfl, rfl⟩
  · exact .inl ⟨rfl, rfl, by rw [hclosed]; rfl⟩
  · refine .inl ⟨rfl, crcOrder_of_adlBeat hbytes _, ?_⟩
    rw [adlEngineOrder.order_beat _ hbytes, State.setAdlRegs_adlOpen, hopen, if_pos rfl]
  · exact .inl ⟨rfl, rfl, by rw [hopen]; rfl⟩

theorem orderAfter_cons (order : Bool → Instr → Option Bool) (isOpen : Bool) (i : Instr) (is : List Instr) :
    orderAfter order isOpen (i :: is) = (order isOpen i).bind (orderAfter order · is) := rfl

/-- A run follows the automata from any state: an error flag, once set, stays, and an automaton that has left the order too. -/
theorem runCommands_followsOrder (is : List Instr) (s : State) :
    ∃ t, runCommands is s = .next t ∧ FollowsOrder (orderAfter crcOrder s.crcOpen is) (orderAfter adlOrder s.adlOpen is) s t := by
  induction is generalizing s with
  | nil => exact ⟨s, rfl, .inl ⟨rfl, rfl, rfl⟩⟩
  | cons i is ih =>
    obtain ⟨s', hexec, hstep⟩ := exec_followsOrder i s
    obtain ⟨t, hrun, hrest⟩ := ih s'
    refine ⟨t, (runCommands_cons hexec is).trans hrun, ?_⟩
    rw [orderAfter_cons, orderAfter_cons]
    rcases hstep with ⟨herr, hcrc, hadl⟩ | ⟨herr, hleft⟩
    · rw [FollowsOrder, herr] at hrest
      rw [hcrc, hadl]
      exact hrest
    · refine .inr ⟨?_, hleft.imp (fun h => by rw [h]; rfl) (fun h => by rw [h]; rfl)⟩
      rcases hrest with ⟨hsame, -⟩ | ⟨hset, -⟩
      · rw [hsame, herr]
      · exact hset

/-- Settles O54: from a state without an error the two cases of `FollowsOrder` exclude each other. -/
theorem noErrorExactlyInLegalOrder : Obligations.NoErrorExactlyInLegalOrder := by
  intro is s hs
  obtain ⟨t, hrun, ⟨herr, hcrc, hadl⟩ | ⟨herr, hleft⟩⟩ := runCommands_followsOrder is s
  · refine ⟨t, hrun, ?_, fun _ => ⟨hcrc, hadl⟩⟩
    simp [herr, hs, legalOrder, hcrc, hadl]
  · refine ⟨t, hrun, ?_, fun hnone => absurd (herr.symm.trans hnone) (by decide)⟩
    rcases hleft with h | h <;> simp [herr, legalOrder, h]

theorem FollowsOrder.wellFormedEnd_iff {crc adl : Option Bool} {s t : State} (h : FollowsOrder crc adl s t)
    (hs : s.anyError = false) : t.WellFormedEnd ↔ crc = some false ∧ adl = some false := by
  rcases h with ⟨herr, rfl, rfl⟩ | ⟨herr, hleft⟩
  · simp [State.WellFormedEnd, herr, hs]
  · rcases hleft with rfl | rfl <;> simp [State.WellFormedEnd, herr]

/-- One operation `BEGIN Dn* END` of an engine. -/
def IsOperation (start : Word → Instr) (beat : Instr → Option (List Byte)) (finish : Instr) (op : List Instr) : Prop :=
  ∃ v beats, op = start v :: (beats ++ [finish]) ∧ allBeats beat beats = true

/-- A concatenation of operations, `( BEGIN Dn* END )*`. -/
def IsOperations (start : Word → Instr) (beat : Instr → Option (List Byte)) (finish : Instr) (is : List Instr) : Prop :=
  ∃ ops : List (List Instr), is = ops.flatten ∧ ∀ op ∈ ops, IsOperation start beat finish op

section
variable {start : Word → Instr} {beat : Instr → Option (List Byte)} {finish : Instr}

theorem IsOperations.nil : IsOperations start beat finish [] := ⟨[], rfl, by simp⟩

theorem IsOperations.cons {op is : List Instr} (hop : IsOperation start beat finish op) (his : IsOperations start beat finish is) :
    IsOperations start beat finish (op ++ is) := by
  obtain ⟨ops, rfl, hops⟩ := his
  exact ⟨op :: ops, rfl, List.forall_mem_cons.mpr ⟨hop, hops⟩⟩

end

theorem orderAfter_append (order : Bool → Instr → Option Bool) (isOpen : Bool) (xs ys : List Instr) :
    orderAfter order isOpen (xs ++ ys) = (orderAfter order isOpen xs).bind (orderAfter order · ys) := by
  induction xs generalizing isOpen with
  | nil => rfl
  | cons x xs ih => simp only [List.cons_append, orderAfter_cons, ih, Option.bind_assoc]

section
variable {order : Bool → Instr → Option Bool} {mine : Instr → Bool} {start : Word → Instr}
  {beat : Instr → Option (List Byte)} {finish : Instr} (h : EngineOrder order mine start beat finish)
include h

theorem EngineOrder.orderAfter_filter (isOpen : Bool) (is : List Instr) :
    orderAfter order isOpen (is.filter mine) = orderAfter order isOpen is := by
  induction is generalizing isOpen with
  | nil => rfl
  | cons i is ih =>
    cases hi : mine i with
    | true => simp only [List.filter_cons_of_pos hi, orderAfter_cons, ih]
    | false => rw [List.filter_cons_of_neg (by simp [hi]), ih, orderAfter_cons, h.order_other isOpen hi]; rfl

theorem EngineOrder.orderAfter_beats {beats : List Instr} (hbeats : allBeats beat beats = true) :
    orderAfter order true beats = some true := by
  rw [allBeats_iff] at hbeats
  induction beats with
  | nil => rfl
  | cons i is ih =>
    obtain ⟨hi, his⟩ := List.forall_mem_cons.mp hbeats
    obtain ⟨bytes, hbytes⟩ := Option.isSome_iff_exists.mp hi
    rw [orderAfter_cons, h.order_beat true hbytes]
    exact ih his

theorem EngineOrder.orderAfter_operation {op : List Instr} (hop : IsOperation start beat finish op) :
    orderAfter order false op = some false := by
  obtain ⟨v, beats, rfl, hbeats⟩ := hop
  simp [orderAfter_append, h.order_start, h.orderAfter_beats hbeats, h.order_finish, orderAfter]

theorem EngineOrder.orderAfter_operations {is : List Instr} (his : IsOperations start beat finish is) :
    orderAfter order false is = some false := by
  obtain ⟨ops, rfl, hops⟩ := his
  induction ops with
  | nil => rfl
  | cons op ops ih =>
    obtain ⟨hop, hops⟩ := List.forall_mem_cons.mp hops
    rw [List.flatten_cons, orderAfter_append, h.orderAfter_operation hop]
    exact ih hops

/-- A word of the automaton from a closed engine is a concatenation of operations; one from an open engine completes any begun
operation to such a concatenation. -/
theorem EngineOrder.isOperations_of_orderAfter {is : List Instr} (hmine : ∀ i ∈ is, mine i = true) :
    (orderAfter order false is = some false → IsOperations start beat finish is) ∧
      (orderAfter order true is = some false → ∀ v beats, allBeats beat beats = true →
        IsOperations start beat finish (start v :: (beats ++ is))) := by
  induction is with
  | nil => exact ⟨fun _ => .nil, (nomatch ·)⟩
  | cons i is ih =>
    obtain ⟨hi, his⟩ := List.forall_mem_cons.mp hmine
    obtain ⟨ihclosed, ihopen⟩ := ih his
    rw [orderAfter_cons, orderAfter_cons]
    rcases h.mine_cases hi with ⟨v, rfl⟩ | ⟨bytes, hbytes⟩ | rfl
    · rw [h.order_start, h.order_start]
      exact ⟨fun hend => ihopen hend v [] rfl, (nomatch ·)⟩
    · rw [h.order_beat _ hbytes, h.order_beat _ hbytes]
      refine ⟨(nomatch ·), fun hend v beats hbeats => ?_⟩
      rw [List.append_cons]
      exact ihopen hend v (beats ++ [i]) (by simpa [allBeats, hbytes] using hbeats)
    · rw [h.order_finish, h.order_finish]
      refine ⟨(nomatch ·), fun hend v beats hbeats => ?_⟩
      have hop : IsOperation start beat i (start v :: (beats ++ [i])) := ⟨v, beats, rfl, hbeats⟩
      simpa using IsOperations.cons hop (ihclosed hend)

theorem EngineOrder.orderAfter_iff (is : List Instr) :
    orderAfter order false is = some false ↔ IsOperations start beat finish (is.filter mine) := by
  rw [← h.orderAfter_filter]
  exact ⟨(h.isOperations_of_orderAfter fun i hi => (List.mem_filter.mp hi).2).1, h.orderAfter_operations⟩

end

/-- Settles O55: the end is well-formed when both automata are back at closed, which each engine's operations say. -/
theorem wellFormedRunsAreTheLegalLanguage : Obligations.WellFormedRunsAreTheLegalLanguage := by
  intro is s ⟨hs, hcrc, hadl⟩
  obtain ⟨t, hrun, hfollows⟩ := runCommands_followsOrder is s
  refine ⟨t, hrun, ?_⟩
  rw [hfollows.wellFormedEnd_iff hs, hcrc, hadl, crcEngineOrder.orderAfter_iff, adlEngineOrder.orderAfter_iff]
  exact Iff.rfl

end Sys2Proof.Machine
end

section
/-! The pseudo-commands (R62, R63): their beats, and the one response of the run. -/

namespace Sys2Proof.Machine

theorem foldGroups_of_lt {σ : Type} {n : Nat} (f : σ → List Byte → σ) (fuel : Nat) (c : σ) {bytes : List Byte}
    (h : bytes.length < n) : foldGroups n f fuel c bytes = (c, bytes) := by
  cases fuel with
  | zero => rfl
  | succ fuel => rw [foldGroups, if_neg (by omega)]

theorem foldGroups_of_le {σ : Type} {n : Nat} (f : σ → List Byte → σ) (fuel : Nat) (c : σ) {bytes : List Byte}
    (h : n ≤ bytes.length) :
    foldGroups n f (fuel + 1) c bytes = foldGroups n f fuel (f c (bytes.take n)) (bytes.drop n) := by
  rw [foldGroups, if_pos h]

/-- How many groups are allowed does not matter once there are as many as bytes. -/
theorem foldGroups_fuel {σ : Type} {n : Nat} (hn : 0 < n) (f : σ → List Byte → σ) {fuel fuel' : Nat} {c : σ}
    {bytes : List Byte} (h : bytes.length ≤ fuel) (h' : bytes.length ≤ fuel') :
    foldGroups n f fuel c bytes = foldGroups n f fuel' c bytes := by
  induction fuel generalizing fuel' c bytes with
  | zero => rw [foldGroups_of_lt f _ c (by omega), foldGroups_of_lt f _ c (by omega)]
  | succ fuel ih =>
    by_cases hle : n ≤ bytes.length
    · obtain ⟨k, rfl⟩ : ∃ k, fuel' = k + 1 := ⟨fuel' - 1, by omega⟩
      rw [foldGroups_of_le f _ c hle, foldGroups_of_le f _ c hle]
      exact ih (by rw [List.length_drop]; omega) (by rw [List.length_drop]; omega)
    · rw [foldGroups_of_lt f _ c (by omega), foldGroups_of_lt f _ c (by omega)]

section
variable (beatOf : List Byte → List Instr)

/-- The beats already written stay in front. -/
theorem foldGroups_beats_append (fuel : Nat) (front : List Instr) (bytes : List Byte) :
    foldGroups 8 (fun is group => is ++ beatOf group) fuel front bytes =
      (front ++ (foldGroups 8 (fun is group => is ++ beatOf group) fuel [] bytes).1,
        (foldGroups 8 (fun is group => is ++ beatOf group) fuel [] bytes).2) := by
  induction fuel generalizing front bytes with
  | zero => simp [foldGroups]
  | succ fuel ih =>
    by_cases hle : 8 ≤ bytes.length
    · rw [foldGroups_of_le _ _ _ hle, foldGroups_of_le _ _ _ hle, ih, ih ([] ++ _)]
      simp
    · simp [foldGroups_of_lt _ _ _ (not_le.mp hle)]

theorem beatsOf_of_lt {bytes : List Byte} (h : bytes.length < 8) : beatsOf beatOf bytes = beatOf bytes := by
  rw [beatsOf, foldGroups_of_lt _ _ _ h]
  rfl

theorem beatsOf_of_le {bytes : List Byte} (h : 8 ≤ bytes.length) :
    beatsOf beatOf bytes = beatOf (bytes.take 8) ++ beatsOf beatOf (bytes.drop 8) := by
  have hdrop : (bytes.drop 8).length ≤ bytes.length := by simp
  rw [beatsOf, foldGroups_fuel (by decide) _ (Nat.le_refl _) (Nat.le_succ _), foldGroups_of_le _ _ _ h,
    foldGroups_beats_append, foldGroups_fuel (by decide) _ hdrop (Nat.le_refl _), List.nil_append, List.append_assoc]
  rfl

end

/-- The beats of an engine: one for 1 to 8 bytes, carrying them, and none for no bytes (R54). -/
structure BeatsCarry (beatOf : List Byte → List Instr) (beat : Instr → Option (List Byte)) : Prop where
  nil : beatOf [] = []
  one : ∀ {bytes : List Byte}, 0 < bytes.length → bytes.length ≤ 8 → ∃ i, beatOf bytes = [i] ∧ beat i = some bytes

theorem crcBeatOf_carry : BeatsCarry crcBeatOf crcBeatBytes where
  nil := rfl
  one {bytes} hpos hle := by
    match bytes, hpos, hle with
    | [_], _, _ | [_, _], _, _ | [_, _, _], _, _ | [_, _, _, _], _, _
    | [_, _, _, _, _], _, _ | [_, _, _, _, _, _], _, _ | [_, _, _, _, _, _, _], _, _
    | [_, _, _, _, _, _, _, _], _, _ => exact ⟨_, rfl, rfl⟩
    | _ :: _ :: _ :: _ :: _ :: _ :: _ :: _ :: _ :: _, _, hle => exact absurd hle (by simp)

theorem adlBeatOf_carry : BeatsCarry adlBeatOf adlBeatBytes where
  nil := rfl
  one {bytes} hpos hle := by
    match bytes, hpos, hle with
    | [_], _, _ | [_, _], _, _ | [_, _, _], _, _ | [_, _, _, _], _, _
    | [_, _, _, _, _], _, _ | [_, _, _, _, _, _], _, _ | [_, _, _, _, _, _, _], _, _
    | [_, _, _, _, _, _, _, _], _, _ => exact ⟨_, rfl, rfl⟩
    | _ :: _ :: _ :: _ :: _ :: _ :: _ :: _ :: _ :: _, _, hle => exact absurd hle (by simp)

section
variable {beatOf : List Byte → List Instr} {beat : Instr → Option (List Byte)} (h : BeatsCarry beatOf beat)
include h

/-- Induction along the beats of a byte sequence: groups of 8 bytes, then a rest of fewer if there is any (R62). -/
theorem BeatsCarry.beats_induction {P : List Byte → List Instr → Prop} (nil : P [] [])
    (rest : ∀ bytes i, 0 < bytes.length → bytes.length < 8 → beat i = some bytes → P bytes [i])
    (group : ∀ bytes i is, 8 ≤ bytes.length → beat i = some (bytes.take 8) → P (bytes.drop 8) is → P bytes (i :: is))
    (bytes : List Byte) : P bytes (beatsOf beatOf bytes) := by
  induction hlen : bytes.length using Nat.strong_induction_on generalizing bytes with
  | _ len ih =>
    subst hlen
    by_cases hle : 8 ≤ bytes.length
    · obtain ⟨i, hi, hcarry⟩ := h.one (bytes := bytes.take 8) (by rw [List.length_take]; omega) (by rw [List.length_take]; omega)
      rw [beatsOf_of_le beatOf hle, hi]
      exact group bytes i _ hle hcarry (ih _ (by rw [List.length_drop]; omega) _ rfl)
    · rw [beatsOf_of_lt beatOf (by omega)]
      by_cases hpos : 0 < bytes.length
      · obtain ⟨i, hi, hcarry⟩ := h.one hpos (by omega)
        rw [hi]
        exact rest bytes i hpos (by omega) hcarry
      · rw [List.length_eq_zero_iff.mp (Nat.eq_zero_of_not_pos hpos), h.nil]
        exact nil

theorem BeatsCarry.length_beatsOf (bytes : List Byte) :
    (beatsOf beatOf bytes).length = bytes.length / 8 + (if 0 < bytes.length % 8 then 1 else 0) := by
  refine h.beats_induction (P := fun bytes is => is.length = bytes.length / 8 + (if 0 < bytes.length % 8 then 1 else 0)) rfl
    (fun bytes i hpos hlt hi => ?_) (fun bytes i is hle hi ih => ?_) bytes
  · rw [Nat.div_eq_of_lt hlt, Nat.mod_eq_of_lt hlt, if_pos hpos]
    rfl
  · have hmod : (bytes.length - 8) % 8 = bytes.length % 8 := (Nat.mod_eq_sub_mod hle).symm
    rw [List.length_drop, hmod] at ih
    rw [List.length_cons, ih]
    omega

theorem BeatsCarry.carried (bytes : List Byte) : ∀ (j : Nat) (i : Instr), (beatsOf beatOf bytes)[j]? = some i →
    beat i = some ((bytes.drop (8 * j)).take 8) := by
  refine h.beats_induction (P := fun bytes is => ∀ (j : Nat) (i : Instr), is[j]? = some i →
    beat i = some ((bytes.drop (8 * j)).take 8)) (fun j i hget => nomatch hget)
    (fun bytes i hpos hlt hi => ?_) (fun bytes i is hle hi ih => ?_) bytes
  · rintro (_ | j) i' hget
    · cases hget
      rw [hi, Nat.mul_zero, List.drop_zero, List.take_of_length_le (by omega)]
    · cases hget
  · rintro (_ | j) i' hget
    · cases hget
      exact hi
    · rw [ih j i' hget, List.drop_drop, Nat.mul_succ, Nat.add_comm]

theorem BeatsCarry.allBeats_beatsOf (bytes : List Byte) : allBeats beat (beatsOf beatOf bytes) = true := by
  rw [allBeats_iff]
  intro i hi
  obtain ⟨j, hj⟩ := List.mem_iff_getElem?.mp hi
  rw [h.carried bytes j i hj]
  rfl

theorem BeatsCarry.bytesOf_beatsOf (bytes : List Byte) : bytesOf beat (beatsOf beatOf bytes) = bytes := by
  refine h.beats_induction (P := fun bytes is => bytesOf beat is = bytes) rfl (fun bytes i hpos hlt hi => ?_)
    (fun bytes i is hle hi ih => ?_) bytes
  · simp [hi]
  · rw [bytesOf_cons, hi, ih]
    exact List.take_append_drop 8 bytes

end

theorem runCommands_append {is : List Instr} {s t : State} (h : runCommands is s = .next t) (js : List Instr) :
    runCommands (is ++ js) s = runCommands js t := by
  induction is generalizing s with
  | nil => cases h; rfl
  | cons i is ih =>
    obtain ⟨s', hexec, -⟩ := exec_followsOrder i s
    rw [runCommands_cons hexec] at h
    rw [List.cons_append, runCommands_cons hexec]
    exact ih h

/-- One operation of the CRC engine over any beats: the whole next state (R71 to R81). -/
theorem runCommands_crcOperation (v : Word) {beats : List Instr} (hbeats : allBeats crcBeatBytes beats = true) {s : State}
    (hclosed : s.crcOpen = false) :
    runCommands (.crcBegin v :: (beats ++ [.crcEnd])) s = .next { s with
      crcSel := resolveSelection Config.kernelsCrc Config.cap s.crcSel
      crcR := crcFold (~~~v) (bytesOf crcBeatBytes beats)
      rsp := s.rsp ++ [crc32 v (bytesOf crcBeatBytes beats)]
      crcOpen := false } := by
  rw [runCommands_cons (exec_crcBegin_of_closed v hclosed), runCommands_append (runCommands_crcBeats hbeats rfl),
    runCommands_cons (exec_crcEnd_of_open rfl)]
  rfl

/-- One operation of the ADL engine over any beats: the whole next state (R100 to R111). -/
theorem runCommands_adlOperation (v : Word) {beats : List Instr} (hbeats : allBeats adlBeatBytes beats = true) {s : State}
    (hclosed : s.adlOpen = false) :
    runCommands (.adlBegin v :: (beats ++ [.adlEnd])) s =
      .next { s.setAdlRegs (adlFinish (adlFoldBytes (adlLoad v) (bytesOf adlBeatBytes beats))) with
        adlSel := resolveSelection Config.kernelsAdl Config.cap s.adlSel
        rsp := s.rsp ++ [adler32 v (bytesOf adlBeatBytes beats)]
        adlOpen := false } := by
  rw [runCommands_cons (exec_adlBegin_of_closed v hclosed), runCommands_append (runCommands_adlBeats hbeats rfl),
    runCommands_cons (exec_adlEnd_of_open rfl), ← adlResponse_adlFoldBytes]
  rfl

/-- Settles O56: the beats of each engine, and the operation over them. -/
theorem pseudoCommandsRealiseTheFunctions : Obligations.PseudoCommandsRealiseTheFunctions := by
  refine ⟨fun v bytes => ⟨rfl, rfl⟩, crcBeatOf_carry.length_beatsOf, adlBeatOf_carry.length_beatsOf, crcBeatOf_carry.carried,
    adlBeatOf_carry.carried, fun v bytes s hclosed => ?_, fun v bytes s hclosed => ?_⟩
  · have hrun := runCommands_crcOperation v (crcBeatOf_carry.allBeats_beatsOf bytes) hclosed
    rw [crcBeatOf_carry.bytesOf_beatsOf] at hrun
    exact ⟨_, hrun, rfl, rfl, rfl, rfl, rfl⟩
  · have hrun := runCommands_adlOperation v (adlBeatOf_carry.allBeats_beatsOf bytes) hclosed
    rw [adlBeatOf_carry.bytesOf_beatsOf] at hrun
    exact ⟨_, hrun, rfl, rfl, rfl, rfl, rfl⟩

end Sys2Proof.Machine
end

section
/-! The commands of the CRC engine one by one, on both paths (R71 to R80), and the laws of `crc32` (R81, R91). -/

namespace Sys2Proof.Machine

open Stated

theorem State.raiseError_sequenceError (s : State) (op : Byte) : s.raiseError .sequenceError op = afterSequenceError op s := by
  cases hill : s.errIll <;> cases hseq : s.errSeq <;>
    simp [State.raiseError, afterSequenceError, State.anyError, hill, hseq]

theorem resolveSelection_eq_ite (ks : List Kernel) (cap : List Capability) (x : Selection) :
    resolveSelection ks cap x = if x = .unresolved then .resolved (select ks cap) else x := by
  cases x <;> rfl

theorem exec_crcBegin_of_open (v : Word) {s : State} (hopen : s.crcOpen = true) :
    exec (.crcBegin v) s = .next (afterSequenceError 0x10 s) := by
  rw [exec, execCrcBegin, hopen, Bool.not_true, sequenced_false, State.raiseError_sequenceError]

/-- A data command of the CRC engine in terms of the register it leaves (R72 to R79). -/
theorem exec_crcBeat_of_open_of_eq {i : Instr} {bytes : List Byte} (h : crcBeatBytes i = some bytes) {s : State}
    (hopen : s.crcOpen = true) {r : Word} (hr : r = crcFold s.crcR bytes) : exec i s = .next { s with crcR := r } :=
  hr ▸ exec_crcBeat_of_open h hopen

theorem exec_crcBeat_of_closed {i : Instr} {bytes : List Byte} (h : crcBeatBytes i = some bytes) {s : State}
    (hclosed : s.crcOpen = false) : exec i s = .next (afterSequenceError (opcodeOf i) s) := by
  rw [exec_eq_crcBeat h, crcBeat, hclosed, sequenced_false, State.raiseError_sequenceError]

theorem exec_crcEnd_of_closed {s : State} (hclosed : s.crcOpen = false) :
    exec .crcEnd s = .next (afterSequenceError 0x19 s) := by
  rw [exec, execCrcEnd, hclosed, sequenced_false, State.raiseError_sequenceError]

/-- Settles O4: both paths of the sequence check, the latch resolved where it was not. -/
theorem crcBeginOpensEngine : Obligations.CrcBeginOpensEngine := by
  refine ⟨decode_of_lookup rfl, fun v s hclosed => ?_, fun v s => exec_crcBegin_of_open v⟩
  rw [exec_crcBegin_of_closed v hclosed, resolveSelection_eq_ite]
  rfl

/-- Settles O5: each data command's row, and its beat on an open and on a closed engine. -/
theorem crcBeatsFoldTheirBytes : Obligations.CrcBeatsFoldTheirBytes :=
  ⟨decode_of_lookup rfl, decode_of_lookup rfl, decode_of_lookup rfl, decode_of_lookup rfl,
    decode_of_lookup rfl, decode_of_lookup rfl, decode_of_lookup rfl, decode_of_lookup rfl,
    fun _ _ h => exec_crcBeat_of_open_of_eq rfl h rfl,
    fun _ _ _ h => exec_crcBeat_of_open_of_eq rfl h rfl,
    fun _ _ _ _ h => exec_crcBeat_of_open_of_eq rfl h rfl,
    fun _ _ _ _ _ h => exec_crcBeat_of_open_of_eq rfl h rfl,
    fun _ _ _ _ _ _ h => exec_crcBeat_of_open_of_eq rfl h rfl,
    fun _ _ _ _ _ _ _ h => exec_crcBeat_of_open_of_eq rfl h rfl,
    fun _ _ _ _ _ _ _ _ h => exec_crcBeat_of_open_of_eq rfl h rfl,
    fun _ _ _ _ _ _ _ _ _ h => exec_crcBeat_of_open_of_eq rfl h rfl,
    fun _ _ => exec_crcBeat_of_closed rfl,
    fun _ _ _ => exec_crcBeat_of_closed rfl,
    fun _ _ _ _ => exec_crcBeat_of_closed rfl,
    fun _ _ _ _ _ => exec_crcBeat_of_closed rfl,
    fun _ _ _ _ _ _ => exec_crcBeat_of_closed rfl,
    fun _ _ _ _ _ _ _ => exec_crcBeat_of_closed rfl,
    fun _ _ _ _ _ _ _ _ => exec_crcBeat_of_closed rfl,
    fun _ _ _ _ _ _ _ _ _ => exec_crcBeat_of_closed rfl⟩

theorem crc32_nil (v : Word) : crc32 v [] = v :=
  BitVec.not_not

/-- Settles O6: both paths of the sequence check, and the operation over no beats. -/
theorem crcEndRespondsComplement : Obligations.CrcEndRespondsComplement := by
  refine ⟨decode_of_lookup rfl, fun s => exec_crcEnd_of_open, fun s => exec_crcEnd_of_closed, fun v s hclosed => ?_⟩
  exact ⟨_, runCommands_crcOperation v (beats := []) rfl hclosed, by rw [bytesOf_nil, crc32_nil]⟩

/-- Settles O31: the operation over any beats, and the equations of the fold. -/
theorem crcOperationRespondsCrc32 : Obligations.CrcOperationRespondsCrc32 := by
  refine ⟨fun v beats s hbeats hclosed => ?_, fun _ _ => rfl, crcFold_nil, crcFold_cons⟩
  rw [runCommands_crcOperation v hbeats hclosed, resolveSelection_eq_ite]

/-- Settles O34: the complement on exit and the one on entry cancel between two operations. -/
theorem crc32Laws : Obligations.Crc32Laws := by
  refine ⟨crc32_nil, fun v a b => ?_, by decide⟩
  rw [crc32, crc32, crc32, BitVec.not_not, crcFold_append]

end Sys2Proof.Machine
end

section
/-! `crc_byte` as eight single-bit steps of the reflected polynomial, and its linearity over XOR (R33, R82, R90). -/

namespace Sys2Proof.Machine

theorem step1_xor (c d : Word) : step1 (c ^^^ d) = step1 c ^^^ step1 d := by
  have hpoly : ∀ a b : Bool, (if a ^^ b then Config.crcPolyReflected else 0) =
      (if a then Config.crcPolyReflected else 0) ^^^ (if b then Config.crcPolyReflected else 0) := by decide
  rw [step1, BitVec.ushiftRight_xor_distrib, BitVec.getLsbD_xor, hpoly, step1, step1]
  ac_rfl

theorem step1_iterate_xor (n : Nat) (c d : Word) : step1^[n] (c ^^^ d) = step1^[n] c ^^^ step1^[n] d :=
  Function.Semiconj₂.iterate (op := (· ^^^ ·)) step1_xor n c d

/-- While the bits shifted out are zero, a bit step is a shift (R82). -/
theorem step1_iterate_of_low_zero {n : Nat} {c : Word} (h : ∀ i < n, c.getLsbD i = false) : step1^[n] c = c >>> n := by
  induction n generalizing c with
  | zero => simp
  | succ n ih =>
    have hstep : step1 c = c >>> 1 := by simp [step1, h 0 (Nat.succ_pos n), -BitVec.getLsbD_eq_getElem]
    have hlow : ∀ i < n, (c >>> 1).getLsbD i = false := fun i hi => by
      rw [BitVec.getLsbD_ushiftRight, h (1 + i) (by omega)]
    rw [Function.iterate_succ_apply, hstep, ih hlow, ← BitVec.shiftRight_add, Nat.add_comm]

@[simp] theorem xor_zext32_ushiftRight (c : Word) (b : Byte) : (c ^^^ zext32 b) >>> 8 = c >>> 8 := by
  ext i hi
  simp

/-- A register's low byte XORed into it clears that byte. -/
theorem xor_lowByte_getLsbD (x : Word) {i : Nat} (hi : i < 8) : (x ^^^ zext32 (slice8 x 0)).getLsbD i = false := by
  have hx : i < 32 := by omega
  simp [slice8, hi, hx]

/-- One further zero byte is eight bit steps: the upper 24 bits only shift, the low byte is the index of `T_0` (R33, R82). -/
theorem shiftZeroByte_eq_iterate : shiftZeroByte = step1^[8] := by
  funext x
  have hhigh : step1^[8] (x ^^^ zext32 (slice8 x 0)) = x >>> 8 := by
    rw [step1_iterate_of_low_zero fun i hi => xor_lowByte_getLsbD x hi, xor_zext32_ushiftRight]
  calc shiftZeroByte x = step1^[8] (x ^^^ zext32 (slice8 x 0)) ^^^ step1^[8] (zext32 (slice8 x 0)) := by
        rw [hhigh, ← step1Times_eq_iterate]
        rfl
    _ = step1^[8] x := by rw [← step1_iterate_xor, BitVec.xor_assoc, BitVec.xor_self, BitVec.xor_zero]

/-- `crc_byte` XORs the byte into the register and shifts a zero byte through (R8, R33). -/
theorem crcByte_eq_shiftZeroByte (c : Word) (b : Byte) : crcByte c b = shiftZeroByte (c ^^^ zext32 b) := by
  rw [crcByte, shiftZeroByte, xor_zext32_ushiftRight]
  rfl

/-- Settles O41: the table form is one further zero byte, which is eight bit steps. -/
theorem crcByteIsEightBitSteps : Obligations.CrcByteIsEightBitSteps := by
  refine ⟨fun c b => ?_, by decide⟩
  rw [crcByte_eq_shiftZeroByte, shiftZeroByte_eq_iterate]
  rfl

theorem shiftZeroByte_xor (c d : Word) : shiftZeroByte (c ^^^ d) = shiftZeroByte c ^^^ shiftZeroByte d :=
  shiftZeroByte_eq_iterate ▸ step1_iterate_xor 8 c d

theorem shiftZeroByte_iterate_xor (n : Nat) (c d : Word) :
    shiftZeroByte^[n] (c ^^^ d) = shiftZeroByte^[n] c ^^^ shiftZeroByte^[n] d :=
  Function.Semiconj₂.iterate (op := (· ^^^ ·)) shiftZeroByte_xor n c d

theorem zext32_xor (b b' : Byte) : zext32 (b ^^^ b') = zext32 b ^^^ zext32 b' :=
  BitVec.setWidth_xor

theorem crcByte_xor (c c' : Word) (b b' : Byte) : crcByte (c ^^^ c') (b ^^^ b') = crcByte c b ^^^ crcByte c' b' := by
  simp only [crcByte_eq_shiftZeroByte, zext32_xor, shiftZeroByte_xor]
  ac_rfl

/-- `T_j[b]` is the byte shifted through by itself and `j` further zero bytes (R33). -/
theorem tableT_eq_iterate (j : Nat) (b : Byte) : tableT j b = shiftZeroByte^[j + 1] (zext32 b) := by
  induction j with
  | zero => rw [shiftZeroByte_eq_iterate, Function.iterate_one, ← step1Times_eq_iterate]; rfl
  | succ j ih => rw [tableT, ih, Function.iterate_succ_apply' shiftZeroByte (j + 1)]

theorem tableT_xor (j : Nat) (b b' : Byte) : tableT j (b ^^^ b') = tableT j b ^^^ tableT j b' := by
  simp only [tableT_eq_iterate, zext32_xor, shiftZeroByte_iterate_xor]

/-- Settles O42: both are iterates of `step1`, which is linear. -/
theorem crcByteIsLinear : Obligations.CrcByteIsLinear :=
  ⟨crcByte_xor, tableT_xor⟩

end Sys2Proof.Machine
end

section
/-! The register a zero byte leaves as it was (R72). -/

namespace Sys2Proof.Machine

/-- The only register with low byte `b` that a zero byte may leave as it was. -/
def fixedRegister (b : Byte) : Word := tableT0 b >>> 24 ^^^ tableT0 b >>> 16 ^^^ tableT0 b >>> 8 ^^^ tableT0 b

/-- The equation `c = (c >> 8) ^ T_0[c[7:0]]`, put into itself until all of the register has been shifted out. -/
theorem eq_fixedRegister {c : Word} (h : shiftZeroByte c = c) : c = fixedRegister (slice8 c 0) := by
  obtain ⟨t, ht⟩ : ∃ t, t = tableT0 (slice8 c 0) := ⟨_, rfl⟩
  have hfix : c >>> 8 ^^^ t = c := ht ▸ h
  have hout : c >>> 32 = 0 := BitVec.ushiftRight_eq_zero (Nat.le_refl 32)
  calc c = (((c >>> 8 ^^^ t) >>> 8 ^^^ t) >>> 8 ^^^ t) >>> 8 ^^^ t := by simp only [hfix]
    _ = c >>> 32 ^^^ t >>> 24 ^^^ t >>> 16 ^^^ t >>> 8 ^^^ t := by
      simp only [BitVec.ushiftRight_xor_distrib, ← BitVec.shiftRight_add]
    _ = fixedRegister (slice8 c 0) := by simp [fixedRegister, hout, ht]

theorem slice8_fixedRegister_eq : ∀ b : Byte, slice8 (fixedRegister b) 0 = b → b = 0 := by
  decide

theorem shiftZeroByte_eq_self_iff (c : Word) : shiftZeroByte c = c ↔ c = 0 := by
  refine ⟨fun h => ?_, fun h => h ▸ by decide⟩
  have hc := eq_fixedRegister h
  have hlow : slice8 c 0 = 0 := slice8_fixedRegister_eq _ (congrArg (slice8 · 0) hc).symm
  rw [hc, hlow]
  decide

theorem crcByte_zero_eq_self_iff (c : Word) : crcByte c 0 = c ↔ c = 0 := by
  have hzero : c ^^^ zext32 0 = c := by simp
  rw [crcByte_eq_shiftZeroByte, hzero, shiftZeroByte_eq_self_iff]

theorem State.setCrcR_eq_self_iff (s : State) (v : Word) : s.setCrcR v = s ↔ v = s.crcR :=
  ⟨congrArg State.crcR, fun h => h ▸ rfl⟩

/-- Settles O43: `CRC.D1 0x00` writes `crc_r` alone, with the byte step of a zero byte. -/
theorem zeroByteFixesOnlyZeroRegister : Obligations.ZeroByteFixesOnlyZeroRegister := by
  refine ⟨crcByte_zero_eq_self_iff, fun s hopen => ?_⟩
  rw [exec_crcBeat_of_open rfl hopen, Host.Outcome.next.injEq, State.setCrcR_eq_self_iff]
  exact crcByte_zero_eq_self_iff s.crcR

end Sys2Proof.Machine
end

section
/-! The wide datapaths of the CRC engine (R83 to R87): up to four bytes are one word XORed into the register and as many zero
bytes shifted through, and a table lookup is a byte shifted through. -/

namespace Sys2Proof.Machine

/-- The first of several zero bytes shifts the register and leaves one lookup to be shifted on (R33). -/
theorem shiftZeroByte_iterate_succ (n : Nat) (x : Word) :
    shiftZeroByte^[n + 1] x = tableT n (slice8 x 0) ^^^ shiftZeroByte^[n] (x >>> 8) := by
  have hlookup : tableT0 (slice8 x 0) = shiftZeroByte (zext32 (slice8 x 0)) := tableT_eq_iterate 0 _
  rw [Function.iterate_succ_apply, shiftZeroByte, shiftZeroByte_iterate_xor, hlookup, ← Function.iterate_succ_apply,
    ← tableT_eq_iterate, BitVec.xor_comm]

theorem slice8_ushiftRight (x : Word) (n : Nat) : slice8 (x >>> 8) n = slice8 x (n + 1) := by
  refine BitVec.eq_of_getLsbD_eq fun i hi => ?_
  simp only [slice8, BitVec.getLsbD_extractLsb', BitVec.getLsbD_ushiftRight, Nat.mul_succ, Nat.add_left_comm, Nat.add_assoc]

theorem shiftZeroByte_iterate_two (x : Word) :
    shiftZeroByte^[2] x = x >>> 16 ^^^ tableT 1 (slice8 x 0) ^^^ tableT 0 (slice8 x 1) := by
  rw [shiftZeroByte_iterate_succ 1, shiftZeroByte_iterate_succ 0, slice8_ushiftRight, ← BitVec.shiftRight_add,
    Function.iterate_zero_apply]
  ac_rfl

theorem shiftZeroByte_iterate_three (x : Word) :
    shiftZeroByte^[3] x = x >>> 24 ^^^ tableT 2 (slice8 x 0) ^^^ tableT 1 (slice8 x 1) ^^^ tableT 0 (slice8 x 2) := by
  rw [shiftZeroByte_iterate_succ 2, shiftZeroByte_iterate_two, slice8_ushiftRight, slice8_ushiftRight, ← BitVec.shiftRight_add]
  ac_rfl

/-- Four zero bytes use up the register: one lookup for each of its bytes (R83, R85). -/
theorem shiftZeroByte_iterate_four (n : Nat) (x : Word) :
    shiftZeroByte^[n + 4] x = tableT (n + 3) (slice8 x 0) ^^^ (tableT (n + 2) (slice8 x 1) ^^^ (tableT (n + 1) (slice8 x 2) ^^^
      tableT n (slice8 x 3))) := by
  have hout : x >>> 32 = 0#32 := BitVec.ushiftRight_eq_zero (Nat.le_refl 32)
  have hzero : shiftZeroByte^[n] 0#32 = 0#32 := Function.iterate_fixed ((shiftZeroByte_eq_self_iff 0).mpr rfl) n
  simp only [shiftZeroByte_iterate_succ, slice8_ushiftRight]
  rw [← BitVec.shiftRight_add, ← BitVec.shiftRight_add, ← BitVec.shiftRight_add, hout, hzero, BitVec.xor_zero]

theorem loWord_packBytes_nil : loWord (packBytes []) = 0 := rfl

theorem loWord_packBytes_cons (b : Byte) (bs : List Byte) :
    loWord (packBytes (b :: bs)) = zext32 b ^^^ loWord (packBytes bs) <<< 8 := by
  refine BitVec.eq_of_getLsbD_eq fun i hi => ?_
  simp only [loWord, BitVec.getLsbD_extractLsb', Nat.zero_add, BitVec.getLsbD_xor, BitVec.getLsbD_shiftLeft,
    packBytes_cons_getLsbD b bs (show i < 64 by omega)]
  by_cases h : i < 8
  · simp [h, hi]
  · simp [h, hi, BitVec.getLsbD_of_ge b i (by omega), show i - 8 < 32 by omega]

/-- The word of `n` bytes ends below bit `8*n`. -/
theorem loWord_packBytes_ushiftRight {bytes : List Byte} {k : Nat} (h : 8 * bytes.length ≤ k) :
    loWord (packBytes bytes) >>> k = 0 := by
  refine BitVec.eq_of_getLsbD_eq fun i _ => ?_
  simp only [loWord, BitVec.getLsbD_ushiftRight, BitVec.getLsbD_extractLsb', Nat.zero_add,
    packBytes_getLsbD_of_ge (Nat.le_add_right_of_le h), Bool.and_false]
  exact BitVec.getLsbD_zero.symm

/-- The word of up to three bytes comes back from one place up when one zero byte is shifted through. -/
theorem shiftZeroByte_loWord_shiftLeft {bytes : List Byte} (h : bytes.length ≤ 3) :
    shiftZeroByte (loWord (packBytes bytes) <<< 8) = loWord (packBytes bytes) := by
  have hlow : ∀ i < 8, (loWord (packBytes bytes) <<< 8).getLsbD i = false := fun i hi => by simp [hi]
  have hhigh : loWord (packBytes bytes) >>> 24 = 0 := loWord_packBytes_ushiftRight (by omega)
  rw [shiftZeroByte_eq_iterate, step1_iterate_of_low_zero hlow]
  generalize loWord (packBytes bytes) = v at hhigh
  bv_omega

/-- Up to four bytes are XORed into the register as one little-endian word, since a later byte can be put in before the earlier
ones are shifted through (R85, R86). -/
theorem crcFold_eq_iterate {bytes : List Byte} (h : bytes.length ≤ 4) (c : Word) :
    crcFold c bytes = shiftZeroByte^[bytes.length] (c ^^^ loWord (packBytes bytes)) := by
  induction bytes generalizing c with
  | nil => simp [loWord_packBytes_nil]
  | cons b bs ih =>
    rw [List.length_cons] at h
    rw [crcFold_cons, ih (by omega), crcByte_eq_shiftZeroByte, ← shiftZeroByte_loWord_shiftLeft (Nat.le_of_lt_succ h),
      ← shiftZeroByte_xor, ← Function.iterate_succ_apply, BitVec.xor_assoc, ← loWord_packBytes_cons]
    rfl

theorem word4_eq_iterate (c v : Word) : word4 c v = shiftZeroByte^[4] (c ^^^ v) := by
  simp only [word4, tab8_eq_tableT, shiftZeroByte_iterate_four 0, BitVec.xor_assoc]
  rfl

theorem word4_eq_crcFold (c : Word) {bytes : List Byte} (h : bytes.length = 4) :
    word4 c (loWord (packBytes bytes)) = crcFold c bytes := by
  rw [word4_eq_iterate, crcFold_eq_iterate h.le, h]

theorem setWidth_append_byte {m : Nat} (high : BitVec m) (b : Byte) :
    (high ++ b).setWidth 32 = zext32 b ^^^ high.setWidth 32 <<< 8 := by
  refine BitVec.eq_of_getLsbD_eq fun i hi => ?_
  simp only [BitVec.getLsbD_setWidth, BitVec.getLsbD_append, BitVec.getLsbD_xor, BitVec.getLsbD_shiftLeft]
  by_cases h : i < 8
  · simp [h, hi]
  · simp [h, hi, BitVec.getLsbD_of_ge b i (by omega), show i - 8 < 32 by omega]

/-- The tails shift the register without the bytes, which are shifted out (R86). -/
theorem xor_loWord_packBytes_ushiftRight (c : Word) {bytes : List Byte} {k : Nat} (h : 8 * bytes.length ≤ k) :
    (c ^^^ loWord (packBytes bytes)) >>> k = c >>> k := by
  rw [BitVec.ushiftRight_xor_distrib, loWord_packBytes_ushiftRight h]
  exact BitVec.xor_zero

/-- Two lookups and one shift (R86). -/
theorem tail2_eq (c : Word) (b0 b1 : Byte) : tail2 c b0 b1 = (c >>> 16) ^^^
    tableT 1 (slice8 (c ^^^ (b1 ++ b0).setWidth 32) 0) ^^^ tableT 0 (slice8 (c ^^^ (b1 ++ b0).setWidth 32) 1) := by
  rw [tail2, tab8_eq_tableT, tab8_eq_tableT]
  rfl

/-- Three lookups and one shift (R86). -/
theorem tail3_eq (c : Word) (b0 b1 b2 : Byte) : tail3 c b0 b1 b2 = (c >>> 24) ^^^
    tableT 2 (slice8 (c ^^^ (b2 ++ b1 ++ b0).setWidth 32) 0) ^^^ tableT 1 (slice8 (c ^^^ (b2 ++ b1 ++ b0).setWidth 32) 1) ^^^
      tableT 0 (slice8 (c ^^^ (b2 ++ b1 ++ b0).setWidth 32) 2) := by
  rw [tail3, tab8_eq_tableT, tab8_eq_tableT, tab8_eq_tableT]
  rfl

theorem tail1_eq_crcFold (c : Word) (b0 : Byte) : tail1 c b0 = crcFold c [b0] := rfl

theorem tail2_eq_crcFold (c : Word) (b0 b1 : Byte) : tail2 c b0 b1 = crcFold c [b0, b1] := by
  have hword : (b1 ++ b0).setWidth 32 = loWord (packBytes [b0, b1]) := by
    simp [loWord_packBytes_cons, loWord_packBytes_nil, setWidth_append_byte]
  rw [crcFold_eq_iterate (by simp), tail2_eq, hword, ← xor_loWord_packBytes_ushiftRight c (bytes := [b0, b1]) (by simp)]
  exact (shiftZeroByte_iterate_two _).symm

theorem tail3_eq_crcFold (c : Word) (b0 b1 b2 : Byte) : tail3 c b0 b1 b2 = crcFold c [b0, b1, b2] := by
  have hword : (b2 ++ b1 ++ b0).setWidth 32 = loWord (packBytes [b0, b1, b2]) := by
    simp [loWord_packBytes_cons, loWord_packBytes_nil, setWidth_append_byte]
  rw [crcFold_eq_iterate (by simp), tail3_eq, hword, ← xor_loWord_packBytes_ushiftRight c (bytes := [b0, b1, b2]) (by simp)]
  exact (shiftZeroByte_iterate_three _).symm

theorem word8_eq_iterate (c : Word) (w : Data) :
    word8 c w = shiftZeroByte^[4] (shiftZeroByte^[4] (c ^^^ loWord w) ^^^ hiWord w) := by
  rw [shiftZeroByte_iterate_xor, ← Function.iterate_add_apply, shiftZeroByte_iterate_four 4, shiftZeroByte_iterate_four 0,
    BitVec.xor_comm c]
  simp only [word8, tab8_eq_tableT, BitVec.xor_assoc]
  rfl

/-- Four bytes of a data field, from byte `j` on, pack to its bits from `8*j` on (R35, R54). -/
theorem loWord_packBytes_byteAt (w : Data) (j : Nat) :
    loWord (packBytes ((List.range' j 4).map (byteAt w))) = w.extractLsb' (8 * j) 32 := by
  refine BitVec.eq_of_getLsbD_eq fun i hi => ?_
  rw [loWord, BitVec.getLsbD_extractLsb', Nat.zero_add, packBytes_map_byteAt_getLsbD, BitVec.getLsbD_extractLsb',
    decide_eq_true (show i < 8 * 4 from hi), Bool.true_and]

theorem word8_eq_crcFold (c : Word) (w : Data) : word8 c w = crcFold c (beatBytes 8 w) := by
  have hcut : beatBytes 8 w = (List.range' 0 4).map (byteAt w) ++ (List.range' 4 4).map (byteAt w) := rfl
  rw [word8_eq_iterate, hcut, crcFold_append, crcFold_eq_iterate (by simp), crcFold_eq_iterate (by simp),
    loWord_packBytes_byteAt, loWord_packBytes_byteAt]
  rfl

theorem word8Fold_eq_crcFold (c : Word) (ws : List Data) : word8Fold c ws = crcFold c (ws.flatMap (beatBytes 8)) := by
  induction ws generalizing c with
  | nil => rfl
  | cons w ws ih => rw [List.flatMap_cons, crcFold_append, ← word8_eq_crcFold, ← ih]; rfl

/-- Byte `n` of the high half is byte `4 + n` of the word (R83). -/
theorem slice8_hiWord (w : Data) {n : Nat} (hn : n < 4) : slice8 (hiWord w) n = w.extractLsb' (32 + 8 * n) 8 := by
  refine BitVec.eq_of_getLsbD_eq fun i hi => ?_
  have hbit : 8 * n + i < 32 := by omega
  simp only [slice8, hiWord, BitVec.getLsbD_extractLsb', hbit, decide_true, Bool.true_and, Nat.add_assoc]

theorem word8_eq (c : Word) (w : Data) : word8 c w =
    ((tab8 0 (slice8 (loWord w ^^^ c) 0) ^^^ tab8 1 (slice8 (loWord w ^^^ c) 1)) ^^^
      (tab8 2 (slice8 (loWord w ^^^ c) 2) ^^^ tab8 3 (slice8 (loWord w ^^^ c) 3))) ^^^
    ((tab8 4 (w.extractLsb' 32 8) ^^^ tab8 5 (w.extractLsb' 40 8)) ^^^
      (tab8 6 (w.extractLsb' 48 8) ^^^ tab8 7 (w.extractLsb' 56 8))) := by
  simp only [word8, slice8_hiWord, Nat.reduceMul, Nat.reduceAdd, Nat.reduceLT]

/-- Settles O37: the low half goes in with the register, the high half after four more zero bytes; a list of words in turn. -/
theorem sliceByEightEqualsByteSteps : Obligations.SliceByEightEqualsByteSteps :=
  ⟨word8_eq, word8_eq_crcFold, fun w s hopen => exec_crcBeat_of_open_of_eq rfl hopen (word8_eq_crcFold s.crcR w),
    word8Fold_eq_crcFold, fun _ _ => rfl⟩

theorem byteAt_stateData (v : Word) {i : Nat} (hi : i < 8) : byteAt (stateData v) i = slice8 v i :=
  BitVec.extractLsb'_setWidth_of_le (by omega)

theorem word4_eq_crcFold_slice8 (c v : Word) : word4 c v = crcFold c [slice8 v 0, slice8 v 1, slice8 v 2, slice8 v 3] := by
  have hbytes : [slice8 v 0, slice8 v 1, slice8 v 2, slice8 v 3] = (List.range' 0 4).map (byteAt (stateData v)) := by
    simp [List.range'_succ, byteAt_stateData]
  rw [hbytes, ← word4_eq_crcFold c (by simp), loWord_packBytes_byteAt]
  exact congrArg (word4 c) (stateOperand_stateData v).symm

/-- Settles O38: the lookups by sub-table, and the word as the fold of its four bytes. -/
theorem fourByteFormEqualsByteSteps : Obligations.FourByteFormEqualsByteSteps := by
  refine ⟨fun _ _ => rfl, fun c v => ?_,
    fun v s hopen => exec_crcBeat_of_open_of_eq rfl hopen (word4_eq_crcFold_slice8 s.crcR v)⟩
  rw [word4, tab8_eq_tableT, tab8_eq_tableT, tab8_eq_tableT, tab8_eq_tableT]
  rfl

/-- Settles O39: the lookups by sub-table, and each tail as the fold of its bytes. -/
theorem tailFormsEqualByteSteps : Obligations.TailFormsEqualByteSteps :=
  ⟨fun _ _ => rfl, tail2_eq, tail3_eq,
    fun b0 s hopen => exec_crcBeat_of_open_of_eq rfl hopen (tail1_eq_crcFold s.crcR b0),
    fun b0 b1 s hopen => exec_crcBeat_of_open_of_eq rfl hopen (tail2_eq_crcFold s.crcR b0 b1),
    fun b0 b1 b2 s hopen => exec_crcBeat_of_open_of_eq rfl hopen (tail3_eq_crcFold s.crcR b0 b1 b2),
    fun b => ⟨(tab8_eq_tableT 7 b).symm, rfl⟩, fun b => (tab8_eq_tableT 6 b).symm, fun b => (tab8_eq_tableT 5 b).symm⟩

end Sys2Proof.Machine
end

section
/-! The source's four-tier reference (R87): each tier's form is the fold of the bytes it consumes. -/

namespace Sys2Proof.Machine

/-- Up to eight bytes are read back from the data field they are packed into (R35). -/
theorem beatBytes_packBytes {bytes : List Byte} (h : bytes.length ≤ 8) : beatBytes bytes.length (packBytes bytes) = bytes := by
  induction bytes with
  | nil => rfl
  | cons b bs ih =>
    rw [List.length_cons] at h
    have htail : (List.range bs.length).map (fun i => byteAt (packBytes (b :: bs)) (i + 1)) = bs :=
      calc _ = beatBytes bs.length (packBytes bs) := List.map_congr_left fun i hi =>
              byteAt_packBytes_succ b bs (by rw [List.mem_range] at hi; omega)
        _ = bs := ih (by omega)
    rw [beatBytes, List.length_cons, List.range_succ_eq_map, List.map_cons, List.map_map, byteAt_packBytes_zero]
    exact congrArg (b :: ·) htail

theorem crcWord64_eq_crcFold (c : Word) {bytes : List Byte} (h : bytes.length = 8) : crcWord64 c bytes = crcFold c bytes := by
  rw [crcWord64, word8_eq_crcFold, ← h, beatBytes_packBytes h.le]

/-- The words of `n` groups of eight bytes, in turn (R84). -/
theorem word8Fold_packed_eq_crcFold {n : Nat} (c : Word) {bytes : List Byte} (h : bytes.length = 8 * n) :
    word8Fold c ((List.range n).map fun j => packBytes ((bytes.drop (8 * j)).take 8)) = crcFold c bytes := by
  induction n generalizing c bytes with
  | zero => rw [List.length_eq_zero_iff.mp h]; rfl
  | succ n ih =>
    have hfirst : word8 c (packBytes (bytes.take 8)) = crcFold c (bytes.take 8) :=
      crcWord64_eq_crcFold c (by rw [List.length_take]; omega)
    have hwords : (List.range n).map (fun j => packBytes ((bytes.drop (8 * (j + 1))).take 8)) =
        (List.range n).map fun j => packBytes (((bytes.drop 8).drop (8 * j)).take 8) :=
      List.map_congr_left fun j _ => by rw [List.drop_drop, Nat.mul_succ, Nat.add_comm]
    calc _ = word8Fold (word8 c (packBytes (bytes.take 8)))
          ((List.range n).map fun j => packBytes ((bytes.drop (8 * (j + 1))).take 8)) := by
          rw [List.range_succ_eq_map, List.map_cons, List.map_map]; rfl
      _ = crcFold (crcFold c (bytes.take 8)) (bytes.drop 8) := by
          rw [hwords, hfirst, ih _ (by rw [List.length_drop]; omega)]
      _ = crcFold c bytes := by rw [← crcFold_append, List.take_append_drop]

theorem crcBlock64_eq_crcFold (c : Word) {bytes : List Byte} (h : bytes.length = 64) : crcBlock64 c bytes = crcFold c bytes :=
  word8Fold_packed_eq_crcFold (n := 8) c h

theorem crcTail_eq_crcFold (c : Word) {bytes : List Byte} (hpos : bytes ≠ []) (hlt : bytes.length < 4) :
    crcTail c bytes = some (crcFold c bytes) := by
  match bytes, hpos, hlt with
  | [b0], _, _ => rw [crcTail, tail1_eq_crcFold]
  | [b0, b1], _, _ => rw [crcTail, tail2_eq_crcFold]
  | [b0, b1, b2], _, _ => rw [crcTail, tail3_eq_crcFold]
  | _ :: _ :: _ :: _ :: _, _, hlt => exact absurd hlt (by simp)

/-- The 4-byte word if there is one, then nothing or a tail (R87). -/
theorem crcRemainder_eq_crcFold (c : Word) {bytes : List Byte} (h : bytes.length < 8) :
    crcRemainder c bytes = some (crcFold c bytes) := by
  have hlast (c : Word) {rest : List Byte} (hlt : rest.length < 4) :
      (if rest.isEmpty then some c else crcTail c rest) = some (crcFold c rest) := by
    cases rest with
    | nil => rfl
    | cons b bs => exact crcTail_eq_crcFold c (List.cons_ne_nil b bs) hlt
  by_cases hle : 4 ≤ bytes.length
  · have hword : crcWord32 c (bytes.take 4) = crcFold c (bytes.take 4) := word4_eq_crcFold c (by rw [List.length_take]; omega)
    simp only [crcRemainder, hle, if_true]
    rw [hlast _ (by rw [List.length_drop]; omega), hword, ← crcFold_append, List.take_append_drop]
  · simp only [crcRemainder, hle, if_false]
    exact hlast c (by omega)

/-- A tier that folds each group leaves fewer bytes than a group, and the fold of these is the fold of all. -/
theorem crcFold_foldGroups {n : Nat} (hn : 0 < n) {f : Word → List Byte → Word}
    (hf : ∀ c bytes, bytes.length = n → f c bytes = crcFold c bytes) (c : Word) (bytes : List Byte) :
    (foldGroups n f bytes.length c bytes).2.length < n ∧
      crcFold (foldGroups n f bytes.length c bytes).1 (foldGroups n f bytes.length c bytes).2 = crcFold c bytes := by
  obtain ⟨hlt, front, hfront, hval, -⟩ :=
    foldGroups_spec hn f crcFold crcFold_nil crcFold_append hf bytes.length c bytes (Nat.le_refl _)
  refine ⟨hlt, ?_⟩
  rw [hval, ← crcFold_append, ← hfront]

/-- Settles O40: each tier hands on a register and bytes whose fold is the fold of all. -/
theorem crc32ReferenceComputesCrc32 : Obligations.Crc32ReferenceComputesCrc32 := by
  intro v bytes
  obtain ⟨-, hblocks⟩ := crcFold_foldGroups (n := 64) (by decide) (fun c _ h => crcBlock64_eq_crcFold c h) (~~~v) bytes
  obtain ⟨hlt, hwords⟩ := crcFold_foldGroups (n := 8) (by decide) (fun c _ h => crcWord64_eq_crcFold c h)
    (foldGroups 64 crcBlock64 bytes.length (~~~v) bytes).1 (foldGroups 64 crcBlock64 bytes.length (~~~v) bytes).2
  rw [crc32Reference, crcRemainder_eq_crcFold _ hlt, hwords, hblocks]
  rfl

end Sys2Proof.Machine
end

section
/-! The commands of the ADL engine one by one, on both paths (R100 to R110), and its operation (R111, R116). -/

namespace Sys2Proof.Machine

open Stated

theorem exec_adlBegin_of_open (v : Word) {s : State} (hopen : s.adlOpen = true) :
    exec (.adlBegin v) s = .next (afterSequenceError 0x20 s) := by
  rw [exec, execAdlBegin, hopen, Bool.not_true, sequenced_false, State.raiseError_sequenceError]

/-- A data command of the ADL engine in terms of the registers it leaves (R102 to R109). -/
theorem exec_adlBeat_of_open_of_eq {i : Instr} {bytes : List Byte} (h : adlBeatBytes i = some bytes) {s : State}
    (hopen : s.adlOpen = true) {r : AdlRegs} (hr : r = adlFoldBytes s.adlRegs bytes) : exec i s = .next (s.setAdlRegs r) :=
  hr ▸ exec_adlBeat_of_open h hopen

theorem exec_adlBeat_of_closed {i : Instr} {bytes : List Byte} (h : adlBeatBytes i = some bytes) {s : State}
    (hclosed : s.adlOpen = false) : exec i s = .next (afterSequenceError (opcodeOf i) s) := by
  rw [exec_eq_adlBeat h, adlBeat, hclosed, sequenced_false, State.raiseError_sequenceError]

theorem exec_adlEnd_of_closed {s : State} (hclosed : s.adlOpen = false) :
    exec .adlEnd s = .next (afterSequenceError 0x29 s) := by
  rw [exec, execAdlEnd, hclosed, sequenced_false, State.raiseError_sequenceError]

theorem adlFinish_of_cnt_zero {r : AdlRegs} (h : r.cnt = 0) : adlFinish r = r := if_neg (not_not.mpr h)

theorem adlFinish_of_cnt_ne_zero {r : AdlRegs} (h : r.cnt ≠ 0) : adlFinish r = adlReduce r := if_pos h

/-- `ADL.END` leaves no partial chunk (R110). -/
theorem adlFinish_cnt (r : AdlRegs) : (adlFinish r).cnt = 0 := by
  by_cases h : r.cnt = 0
  · rwa [adlFinish_of_cnt_zero h]
  · rw [adlFinish_of_cnt_ne_zero h, adlReduce]

theorem adlMod_adlMod (v : Word) : adlMod (adlMod v) = adlMod v :=
  BitVec.eq_of_toNat_eq (by rw [adlMod_toNat, adlMod_toNat, Nat.mod_mod])

/-- Reducing reduced sums again changes nothing (R110). -/
theorem adlReduce_adlReduce (r : AdlRegs) : adlReduce (adlReduce r) = adlReduce r := by
  simp only [adlReduce, adlMod_adlMod]

theorem lowHalf_toNat_eq_extract (v : Word) : (lowHalf v).toNat = (v.extractLsb' 0 16).toNat :=
  BitVec.toNat_setWidth_of_le (by decide)

theorem highHalf_toNat_eq_extract (v : Word) : (highHalf v).toNat = (v.extractLsb' 16 16).toNat :=
  BitVec.toNat_setWidth_of_le (by decide)

theorem adler32_nil (v : Word) : adler32 v [] = v := rfl

theorem adler32_of_ne_nil (v : Word) {bytes : List Byte} (h : bytes ≠ []) : adler32 v bytes =
    packHalves (BitVec.ofNat 32 (adlerS2 v bytes % 65521)) (BitVec.ofNat 32 (adlerS1 v bytes % 65521)) :=
  if_neg h

/-- Settles O8: the counter reaches the bound as a 13-bit word exactly when it does as a number. -/
theorem adlFoldOfOneByte : Obligations.AdlFoldOfOneByte := by
  intro r b
  have cnt_iff : r.cnt + 1 = 5552 ↔ (r.cnt + 1).toNat = Config.adlerChunkMax := BitVec.toNat_inj.symm
  rcases adlFoldWith_cases Config.adlerChunkMax r b with ⟨hend, heq⟩ | ⟨hend, heq⟩ <;> rw [adlFold, heq]
  · rw [if_pos (cnt_iff.mpr hend)]; rfl
  · rw [if_neg (mt cnt_iff.mp hend)]

/-- Settles O9: both paths of the sequence check, the latch resolved where it was not. -/
theorem adlBeginLoadsHalves : Obligations.AdlBeginLoadsHalves := by
  refine ⟨decode_of_lookup rfl, fun v s hclosed => ?_, fun v s => exec_adlBegin_of_open v⟩
  rw [exec_adlBegin_of_closed v hclosed, resolveSelection_eq_ite]
  rfl

/-- Settles O10: each data command's row, and its beat on an open and on a closed engine. -/
theorem adlBeatsFoldTheirBytes : Obligations.AdlBeatsFoldTheirBytes :=
  ⟨decode_of_lookup rfl, decode_of_lookup rfl, decode_of_lookup rfl, decode_of_lookup rfl,
    decode_of_lookup rfl, decode_of_lookup rfl, decode_of_lookup rfl, decode_of_lookup rfl,
    fun _ _ h => exec_adlBeat_of_open_of_eq rfl h (by simp only [adlFoldBytes_cons, adlFoldBytes_nil]),
    fun _ _ _ h => exec_adlBeat_of_open_of_eq rfl h (by simp only [adlFoldBytes_cons, adlFoldBytes_nil]),
    fun _ _ _ _ h => exec_adlBeat_of_open_of_eq rfl h (by simp only [adlFoldBytes_cons, adlFoldBytes_nil]),
    fun _ _ _ _ _ h => exec_adlBeat_of_open_of_eq rfl h (by simp only [adlFoldBytes_cons, adlFoldBytes_nil]),
    fun _ _ _ _ _ _ h => exec_adlBeat_of_open_of_eq rfl h (by simp only [adlFoldBytes_cons, adlFoldBytes_nil]),
    fun _ _ _ _ _ _ _ h => exec_adlBeat_of_open_of_eq rfl h (by simp only [adlFoldBytes_cons, adlFoldBytes_nil]),
    fun _ _ _ _ _ _ _ _ h => exec_adlBeat_of_open_of_eq rfl h (by simp only [adlFoldBytes_cons, adlFoldBytes_nil]),
    fun _ _ _ _ _ _ _ _ _ h => exec_adlBeat_of_open_of_eq rfl h (by simp only [adlFoldBytes_cons, adlFoldBytes_nil]),
    fun _ _ => exec_adlBeat_of_closed rfl,
    fun _ _ _ => exec_adlBeat_of_closed rfl,
    fun _ _ _ _ => exec_adlBeat_of_closed rfl,
    fun _ _ _ _ _ => exec_adlBeat_of_closed rfl,
    fun _ _ _ _ _ _ => exec_adlBeat_of_closed rfl,
    fun _ _ _ _ _ _ _ => exec_adlBeat_of_closed rfl,
    fun _ _ _ _ _ _ _ _ => exec_adlBeat_of_closed rfl,
    fun _ _ _ _ _ _ _ _ _ => exec_adlBeat_of_closed rfl⟩

/-- Settles O11: both paths of the sequence check, both counter cases, and the operation over no beats. -/
theorem adlEndReducesAndResponds : Obligations.AdlEndReducesAndResponds := by
  refine ⟨decode_of_lookup rfl, fun s hopen hcnt => ?_, fun s hopen hcnt => ?_, fun s => exec_adlEnd_of_closed,
    fun v s hclosed => ?_, adlReduce_adlReduce, fun r hr => ?_⟩
  · rw [exec_adlEnd_of_open hopen, adlResponse, adlFinish_of_cnt_ne_zero hcnt]
    rfl
  · rw [exec_adlEnd_of_open hopen, adlResponse, adlFinish_of_cnt_zero hcnt]
    rfl
  · exact ⟨_, runCommands_adlOperation v (beats := []) rfl hclosed, by rw [bytesOf_nil, adler32_nil]⟩
  · obtain ⟨-, hs1, hs2⟩ := hr.adlFinish
    rw [adlFinish_cnt] at hs1 hs2
    exact ⟨Nat.lt_succ_of_le hs1, Nat.lt_succ_of_le hs2⟩

theorem byteSum_eq_sum (bytes : List Byte) : byteSum bytes = (bytes.map BitVec.toNat).sum := by
  induction bytes with
  | nil => rfl
  | cons b bs ih => rw [byteSum, ih, List.map_cons, List.sum_cons]

/-- The weighted sum as R111 writes it, over the positions of the bytes. -/
theorem weightedByteSum_eq_sum (bytes : List Byte) : weightedByteSum bytes =
    ((List.range bytes.length).map fun i => (bytes.length - i) * (bytes.getD i 0).toNat).sum := by
  induction bytes with
  | nil => rfl
  | cons b bs ih =>
    rw [weightedByteSum, ih, List.length_cons, List.range_succ_eq_map, List.map_cons, List.map_map, List.sum_cons]
    refine congrArg₂ (· + ·) rfl (congrArg List.sum (List.map_congr_left fun i _ => ?_))
    simp

/-- Settles O32: the operation over any beats, and R111's two sums written out. -/
theorem adlOperationRespondsAdler32 : Obligations.AdlOperationRespondsAdler32 := by
  refine ⟨fun v beats s hbeats hclosed => ?_, adler32_nil, fun v bytes hne => ?_⟩
  · exact ⟨_, runCommands_adlOperation v hbeats hclosed, rfl, rfl, rfl, rfl, rfl, rfl, rfl, rfl, rfl, rfl⟩
  · rw [adler32_of_ne_nil v hne, adlerS1, adlerS2, byteSum_eq_sum, weightedByteSum_eq_sum, lowHalf_toNat_eq_extract,
      highHalf_toNat_eq_extract, packHalves]

/-- Settles O46: every bound of R116 keeps the registers within R14's bounds and on R111's sums. -/
theorem chunkBoundDoesNotMatter : Obligations.ChunkBoundDoesNotMatter := by
  have wf_iff (m : Nat) : chunkBoundWf m = true ↔ 1 ≤ m ∧ m ≤ 5552 := decide_eq_true_iff
  refine ⟨wf_iff, fun m v bytes hm => ?_⟩
  obtain ⟨hpos, hmax⟩ := (wf_iff m).mp hm
  exact adlOperationWith_eq_adler32 hpos hmax v bytes

end Sys2Proof.Machine
end

section
/-! The laws of `adler32` (R117, R118): its halves are R111's sums modulo 65521, and the sums go on over a second input. -/

namespace Sys2Proof.Machine

theorem lowHalf_toNat_eq_mod (v : Word) : (lowHalf v).toNat = v.toNat % 65536 := by
  rw [lowHalf_toNat_eq_extract, BitVec.extractLsb'_toNat, Nat.shiftRight_zero]

theorem highHalf_toNat_eq_div (v : Word) : (highHalf v).toNat = v.toNat / 65536 := by
  rw [highHalf_toNat_eq_extract, BitVec.extractLsb'_toNat, Nat.shiftRight_eq_div_pow]
  exact Nat.mod_eq_of_lt (Nat.div_lt_of_lt_mul v.isLt)

theorem packHalves_toNat {s1 s2 : Nat} (h1 : s1 < 65536) (h2 : s2 < 65536) :
    (packHalves (BitVec.ofNat 32 s2) (BitVec.ofNat 32 s1)).toNat = s2 * 65536 + s1 := by
  have hor : s2 <<< 16 ||| s1 = s2 <<< 16 + s1 := (Nat.shiftLeft_add_eq_or_of_lt h1 s2).symm
  have hshift : s2 <<< 16 % 4294967296 = s2 <<< 16 := Nat.mod_eq_of_lt (by rw [Nat.shiftLeft_eq]; omega)
  rw [packHalves, BitVec.toNat_or, BitVec.toNat_shiftLeft, BitVec.toNat_ofNat, BitVec.toNat_ofNat,
    Nat.mod_eq_of_lt (by omega : s1 < 2 ^ 32), Nat.mod_eq_of_lt (by omega : s2 < 2 ^ 32), hshift, hor, Nat.shiftLeft_eq]

theorem lowHalf_adler32_toNat (v : Word) {bytes : List Byte} (h : bytes ≠ []) :
    (lowHalf (adler32 v bytes)).toNat = adlerS1 v bytes % 65521 := by
  rw [adler32_of_ne_nil v h, lowHalf_toNat_eq_mod, packHalves_toNat (by omega) (by omega)]
  omega

theorem highHalf_adler32_toNat (v : Word) {bytes : List Byte} (h : bytes ≠ []) :
    (highHalf (adler32 v bytes)).toNat = adlerS2 v bytes % 65521 := by
  rw [adler32_of_ne_nil v h, highHalf_toNat_eq_div, packHalves_toNat (by omega) (by omega)]
  omega

theorem byteSum_append (a b : List Byte) : byteSum (a ++ b) = byteSum a + byteSum b := by
  simp [byteSum_eq_sum]

theorem weightedByteSum_append (a b : List Byte) :
    weightedByteSum (a ++ b) = weightedByteSum a + b.length * byteSum a + weightedByteSum b := by
  induction a with
  | nil => simp [weightedByteSum, byteSum]
  | cons x xs ih =>
    simp only [List.cons_append, weightedByteSum, byteSum, ih, List.length_append]
    ring

/-- The second input's sum goes on from the first input's (R111). -/
theorem adlerS1_append (v : Word) (a b : List Byte) : adlerS1 v (a ++ b) = adlerS1 v a + byteSum b := by
  rw [adlerS1, adlerS1, byteSum_append, Nat.add_assoc]

/-- The second input's sum of sums goes on from both sums of the first (R111). -/
theorem adlerS2_append (v : Word) (a b : List Byte) :
    adlerS2 v (a ++ b) = adlerS2 v a + b.length * adlerS1 v a + weightedByteSum b := by
  simp only [adlerS2, adlerS1, weightedByteSum_append, List.length_append]
  ring

theorem adlerS1_adler32_modEq (v : Word) {a : List Byte} (h : a ≠ []) (b : List Byte) :
    adlerS1 (adler32 v a) b ≡ adlerS1 v (a ++ b) [MOD 65521] := by
  rw [adlerS1, lowHalf_adler32_toNat v h, adlerS1_append]
  exact (Nat.mod_modEq _ _).add_right _

theorem adlerS2_adler32_modEq (v : Word) {a : List Byte} (h : a ≠ []) (b : List Byte) :
    adlerS2 (adler32 v a) b ≡ adlerS2 v (a ++ b) [MOD 65521] := by
  rw [adlerS2, lowHalf_adler32_toNat v h, highHalf_adler32_toNat v h, adlerS2_append]
  exact ((Nat.mod_modEq _ _).add ((Nat.mod_modEq _ _).mul_left _)).add_right _

/-- Chained calls compose, the reduction between them or none at all where the first input is empty (R117). -/
theorem adler32_adler32 (v : Word) (a b : List Byte) : adler32 (adler32 v a) b = adler32 v (a ++ b) := by
  by_cases ha : a = []
  · rw [ha, adler32_nil, List.nil_append]
  by_cases hb : b = []
  · rw [hb, adler32_nil, List.append_nil]
  have hs1 := adlerS1_adler32_modEq v ha b
  have hs2 := adlerS2_adler32_modEq v ha b
  rw [adler32_of_ne_nil _ hb, adler32_of_ne_nil v (List.append_ne_nil_of_right_ne_nil a hb), hs1, hs2]

theorem byteSum_replicate (n : Nat) (b : Byte) : byteSum (List.replicate n b) = n * b.toNat := by
  simp [byteSum_eq_sum]

theorem weightedByteSum_replicate (n : Nat) (b : Byte) :
    weightedByteSum (List.replicate n b) = n * (n + 1) / 2 * b.toNat := by
  induction n with
  | zero => simp [weightedByteSum]
  | succ n ih =>
    rw [List.replicate_succ, weightedByteSum, ih, List.length_replicate, triangle_succ]
    ring

/-- `adler32` over one byte value repeated, in closed form. -/
theorem adler32_replicate (v : Word) {n : Nat} (hn : n ≠ 0) (b : Byte) : adler32 v (List.replicate n b) =
    packHalves
      (BitVec.ofNat 32 (((highHalf v).toNat + n * (lowHalf v).toNat + n * (n + 1) / 2 * b.toNat) % 65521))
      (BitVec.ofNat 32 (((lowHalf v).toNat + n * b.toNat) % 65521)) := by
  rw [adler32_of_ne_nil v (mt (List.replicate_eq_nil_iff b).mp hn), adlerS1, adlerS2, byteSum_replicate,
    weightedByteSum_replicate, List.length_replicate]

theorem adler32_zero_replicate_zero (n : Nat) : adler32 0 (List.replicate n 0) = 0 := by
  by_cases hn : n = 0
  · rw [hn, List.replicate_zero, adler32_nil]
  · rw [adler32_replicate 0 hn]
    simp [lowHalf, highHalf, packHalves]

/-- Settles O35: composition by the two congruences, the range by the halves, the known inputs by the closed form. -/
theorem adler32Laws : Obligations.Adler32Laws := by
  refine ⟨adler32_nil, adler32_adler32, fun v bytes hne => ?_, fun bytes hzero => ?_, ?_, ?_, ?_⟩
  · rw [lowHalf_adler32_toNat v hne, highHalf_adler32_toNat v hne]
    omega
  · rw [List.eq_replicate_of_mem hzero]
    exact adler32_zero_replicate_zero bytes.length
  all_goals
    rw [adler32_replicate _ (by decide)]
    decide

/-- Settles O36: the examples computed, and the halves in the sums as they stand. -/
theorem unreducedAdlerStates : Obligations.UnreducedAdlerStates := by
  refine ⟨adler32_nil _, by decide, by decide, fun v bytes => ?_⟩
  rw [adlerS1, adlerS2, lowHalf_toNat_eq_extract, highHalf_toNat_eq_extract]
  exact ⟨rfl, rfl⟩

end Sys2Proof.Machine
end

section
/-! The grouped closed forms (R112, R113): a group of any length is that many byte steps. -/

namespace Sys2Proof.Machine

/-- The closed form equals the byte steps, whatever the number of bytes; the 32-bit arithmetic is a commutative ring. -/
theorem foldl_adlByte_eq_adlGroup (p : Word × Word) (bytes : List Byte) :
    bytes.foldl adlByte p = adlGroup bytes.length p bytes := by
  induction bytes generalizing p with
  | nil => simp [adlGroup, sumWord, weightedWord]
  | cons b bs ih =>
    have weight_succ : BitVec.ofNat 32 (bs.length + 1) = BitVec.ofNat 32 bs.length + 1 := BitVec.ofNat_add ..
    rw [List.foldl_cons, ih]
    simp only [adlGroup, adlByte, sumWord, weightedWord, List.length_cons, Nat.add_sub_cancel, weight_succ]
    refine Prod.ext ?_ ?_ <;> ring

theorem adlGroup_eq_foldl_adlByte {n : Nat} (p : Word × Word) {bytes : List Byte} (h : bytes.length = n) :
    adlGroup n p bytes = bytes.foldl adlByte p := by
  rw [← h, foldl_adlByte_eq_adlGroup]

theorem adlFold_of_cnt_ne {r : AdlRegs} (h : (r.cnt + 1).toNat ≠ 5552) (b : Byte) :
    adlFold r b = ⟨(adlByte (r.s1, r.s2) b).1, (adlByte (r.s1, r.s2) b).2, r.cnt + 1⟩ :=
  if_neg h

theorem adlFold_of_cnt_eq {r : AdlRegs} (h : (r.cnt + 1).toNat = 5552) (b : Byte) :
    adlFold r b = ⟨adlMod (adlByte (r.s1, r.s2) b).1, adlMod (adlByte (r.s1, r.s2) b).2, 0⟩ :=
  if_pos h

/-- Where no chunk ends inside, the fold is the plain byte steps and the counter counts them (R101). -/
theorem adlFoldBytes_of_lt {r : AdlRegs} {bytes : List Byte} (h : r.cnt.toNat + bytes.length < 5552) :
    adlFoldBytes r bytes = ⟨(bytes.foldl adlByte (r.s1, r.s2)).1, (bytes.foldl adlByte (r.s1, r.s2)).2,
      r.cnt + BitVec.ofNat 13 bytes.length⟩ := by
  induction bytes generalizing r with
  | nil => simp
  | cons b bs ih =>
    rw [List.length_cons] at h
    have hcnt : (r.cnt + 1).toNat = r.cnt.toNat + 1 :=
      BitVec.toNat_add_of_lt (show r.cnt.toNat + 1 < 2 ^ 13 by omega)
    have hcount : r.cnt + 1 + BitVec.ofNat 13 bs.length = r.cnt + BitVec.ofNat 13 (bs.length + 1) := by
      rw [BitVec.ofNat_add, BitVec.add_assoc, BitVec.add_comm 1]
      rfl
    rw [adlFoldBytes_cons, adlFold_of_cnt_ne (by omega), ih (by simp only; omega), hcount]
    rfl

/-- Settles O44: each closed form is the fold of its bytes, and the fold is what `ADL.D4` leaves while no chunk ends. -/
theorem adlerGroupsEqualByteSteps : Obligations.AdlerGroupsEqualByteSteps := by
  refine ⟨?_, ?_, fun p bytes => adlGroup_eq_foldl_adlByte p, fun p bytes => adlGroup_eq_foldl_adlByte p, ?_, ?_⟩
  · intros
    rw [foldl_adlByte_eq_adlGroup]
    simp [adlGroup, sumWord, weightedWord, BitVec.add_assoc]
  · intros
    rw [foldl_adlByte_eq_adlGroup]
    simp [adlGroup, sumWord, weightedWord, BitVec.add_assoc]
  · intro r bytes h
    rw [adlFoldBytes_of_lt h]
  · intro b0 b1 b2 b3 s hopen hcnt
    rw [exec_adlBeat_of_open rfl hopen, adlFoldBytes_of_lt hcnt, adlGroup4, adlGroup_eq_foldl_adlByte (n := 4) _ rfl]
    rfl

end Sys2Proof.Machine
end

section
/-! The source's chunked reference (R115): a chunk of it is a chunk of the block's own byte steps. -/

namespace Sys2Proof.Machine

/-- A tier of groups, and the byte steps over what it leaves, are the byte steps over all. -/
theorem foldl_adlByte_foldGroups {n : Nat} (hn : 0 < n) (p : Word × Word) (bytes : List Byte) :
    (foldGroups n (adlGroup n) bytes.length p bytes).2.foldl adlByte (foldGroups n (adlGroup n) bytes.length p bytes).1 =
      bytes.foldl adlByte p := by
  obtain ⟨-, front, hfront, hval, -⟩ := foldGroups_spec hn (adlGroup n) (fun p bytes => bytes.foldl adlByte p)
    (fun _ => rfl) (fun _ _ _ => List.foldl_append) (fun p _ => adlGroup_eq_foldl_adlByte p) bytes.length p bytes
    (Nat.le_refl _)
  rw [hval, ← List.foldl_append, ← hfront]

theorem adlChunk_eq (p : Word × Word) (bytes : List Byte) :
    adlChunk p bytes = (adlMod (bytes.foldl adlByte p).1, adlMod (bytes.foldl adlByte p).2) := by
  have hbytes := (foldl_adlByte_foldGroups (n := 4) (by decide) _ _).trans
    (foldl_adlByte_foldGroups (n := 16) (by decide) p bytes)
  rw [← hbytes]
  rfl

/-- The registers with these sums and no byte counted. -/
def adlStart (p : Word × Word) : AdlRegs := ⟨p.1, p.2, 0⟩

theorem adlFinish_adlStart (p : Word × Word) : adlFinish (adlStart p) = adlStart p := adlFinish_of_cnt_zero rfl

/-- Short of a full chunk the counter is the number of bytes. -/
theorem adlFoldBytes_adlStart (p : Word × Word) {bytes : List Byte} (h : bytes.length < 5552) :
    adlFoldBytes (adlStart p) bytes =
      ⟨(bytes.foldl adlByte p).1, (bytes.foldl adlByte p).2, BitVec.ofNat 13 bytes.length⟩ := by
  have hlt : (adlStart p).cnt.toNat + bytes.length < 5552 := by simpa [adlStart] using h
  rw [adlFoldBytes_of_lt hlt]
  simp [adlStart]

/-- The byte that fills a chunk reduces at once (R101). -/
theorem adlFoldBytes_fullChunk (p : Word × Word) {bytes : List Byte} (h : bytes.length = 5552) :
    adlFoldBytes (adlStart p) bytes = adlStart (adlChunk p bytes) := by
  rcases List.eq_nil_or_concat' bytes with rfl | ⟨front, b, rfl⟩
  · exact absurd h (by decide)
  have hfront : front.length = 5551 := by simpa using h
  have hend : (BitVec.ofNat 13 5551 + 1).toNat = 5552 := by decide
  rw [adlFoldBytes_append, adlFoldBytes_adlStart p (by omega), hfront, adlFoldBytes_cons, adlFoldBytes_nil,
    adlFold_of_cnt_eq hend, adlChunk_eq, List.foldl_concat]
  rfl

/-- A last chunk that is not full is reduced by `ADL.END` (R110). -/
theorem adlFinish_partialChunk (p : Word × Word) {bytes : List Byte} (hne : bytes ≠ []) (h : bytes.length < 5552) :
    adlFinish (adlFoldBytes (adlStart p) bytes) = adlStart (adlChunk p bytes) := by
  have hcnt : BitVec.ofNat 13 bytes.length ≠ 0 := fun hzero => by
    have hlength := congrArg BitVec.toNat hzero
    rw [BitVec.toNat_ofNat, Nat.mod_eq_of_lt (by omega)] at hlength
    exact hne (List.length_eq_zero_iff.mp hlength)
  rw [adlFoldBytes_adlStart p h, adlFinish_of_cnt_ne_zero hcnt, adlChunk_eq]
  rfl

/-- The reference's loop computes the sums that the block's byte steps and `ADL.END` leave. -/
theorem adlStart_adlChunks {fuel : Nat} (p : Word × Word) {bytes : List Byte} (h : bytes.length ≤ fuel) :
    adlStart (adlChunks fuel p bytes) = adlFinish (adlFoldBytes (adlStart p) bytes) := by
  induction fuel generalizing p bytes with
  | zero =>
    rw [List.length_eq_zero_iff.mp (Nat.le_zero.mp h), adlFoldBytes_nil, adlFinish_adlStart]
    rfl
  | succ fuel ih =>
    by_cases hne : bytes = []
    · rw [hne, adlFoldBytes_nil, adlFinish_adlStart]
      rfl
    have hshorter : (bytes.drop Config.adlerChunkMax).length ≤ fuel := by
      rw [List.length_drop, Config.adlerChunkMax]
      omega
    rw [adlChunks, if_neg (by simpa using hne), ih _ hshorter, Config.adlerChunkMax]
    rcases Nat.lt_or_ge bytes.length 5552 with hlt | hge
    · rw [List.take_of_length_le hlt.le, List.drop_of_length_le hlt.le, adlFoldBytes_nil, adlFinish_adlStart,
        adlFinish_partialChunk p hne hlt]
    · rw [← adlFoldBytes_fullChunk p (by rw [List.length_take]; omega), ← adlFoldBytes_append,
        List.take_append_drop]

/-- Settles O45: the reference's sums are those `ADL.END` packs after the byte steps over the loaded state. -/
theorem adler32ReferenceComputesAdler32 : Obligations.Adler32ReferenceComputesAdler32 := by
  intro v bytes
  have hsums := adlStart_adlChunks (lowHalf v, highHalf v) (Nat.le_refl bytes.length)
  have hresponse : packHalves (adlStart (adlChunks bytes.length (lowHalf v, highHalf v) bytes)).s2
      (adlStart (adlChunks bytes.length (lowHalf v, highHalf v) bytes)).s1 = adler32 v bytes := by
    rw [hsums]
    exact adlResponse_adlFoldBytes v bytes
  exact hresponse

end Sys2Proof.Machine
end

section
/-! The capability probe and the write-once latches (R131, R132): what `select` and the source's dispatch answer over a kernel
list, and that no step but a reset changes a latch once it is resolved. -/

namespace Sys2Proof.Machine

theorem kernelQualifies_iff (cap : List Capability) (k : Kernel) : kernelQualifies cap k = true ↔ ∀ c ∈ k.requires, c ∈ cap := by
  simp [kernelQualifies, hasFeature]

section
variable {ks pre : List Kernel} {k : Kernel} {cap : List Capability}

theorem firstQualifying_eq_none (h : ∀ j ∈ ks, ¬ ∀ c ∈ j.requires, c ∈ cap) : firstQualifying ks cap = none :=
  List.find?_eq_none.mpr fun j hj => (kernelQualifies_iff cap j).not.mpr (h j hj)

theorem firstQualifying_append_cons (hpre : ∀ j ∈ pre, ¬ ∀ c ∈ j.requires, c ∈ cap) (hk : ∀ c ∈ k.requires, c ∈ cap)
    (post : List Kernel) : firstQualifying (pre ++ k :: post) cap = some k :=
  List.find?_eq_some_iff_append.mpr ⟨(kernelQualifies_iff cap k).mpr hk, pre, post, rfl, fun j hj => by
    simpa using (kernelQualifies_iff cap j).not.mpr (hpre j hj)⟩

theorem select_of_some (h : firstQualifying ks cap = some k) : select ks cap = .kernel k.id := by
  rw [select, h]

theorem select_of_none (h : firstQualifying ks cap = none) : select ks cap = .reference := by
  rw [select, h]

section
variable (reference : Word → List Byte → Word)

theorem selectedFunction_of_some (h : firstQualifying ks cap = some k) : selectedFunction ks cap reference = k.run := by
  rw [selectedFunction, h]

theorem selectedFunction_of_none (h : firstQualifying ks cap = none) : selectedFunction ks cap reference = reference := by
  rw [selectedFunction, h]

end

/-- The function run is an entry's or the reference (R131). -/
theorem selectedFunction_cases (ks : List Kernel) (cap : List Capability) (reference : Word → List Byte → Word) :
    (∃ k ∈ ks, selectedFunction ks cap reference = k.run) ∨ selectedFunction ks cap reference = reference := by
  cases hfirst : firstQualifying ks cap with
  | some k => exact .inl ⟨k, List.mem_of_find?_eq_some hfirst, selectedFunction_of_some reference hfirst⟩
  | none => exact .inr (selectedFunction_of_none reference hfirst)

end

/-- Settles O59: both functions branch on the same first qualifying entry, which is an entry of the list. -/
theorem selectedFunctionIsFirstQualifyingKernel : Obligations.SelectedFunctionIsFirstQualifyingKernel := by
  refine ⟨fun pre post k cap reference hpre hk => ?_, fun ks cap reference hks => ?_, fun f reference ks cap hks href v bytes => ?_⟩
  · have hfirst := firstQualifying_append_cons hpre hk post
    exact ⟨select_of_some hfirst, selectedFunction_of_some reference hfirst⟩
  · have hnone := firstQualifying_eq_none hks
    exact ⟨select_of_none hnone, selectedFunction_of_none reference hnone⟩
  · rcases selectedFunction_cases ks cap reference with ⟨k, hk, heq⟩ | heq <;> rw [heq]
    · exact hks k hk v bytes
    · exact href v bytes

theorem resolveSelection_of_unresolved (ks : List Kernel) (cap : List Capability) {x : Selection} (h : x = .unresolved) :
    resolveSelection ks cap x = .resolved (select ks cap) := by
  rw [h, resolveSelection]

theorem resolveSelection_of_resolved (ks : List Kernel) (cap : List Capability) {x : Selection} (h : x ≠ .unresolved) :
    resolveSelection ks cap x = x := by
  rw [resolveSelection_eq_ite, if_neg h]

/-- A latch resolved in the first state is the same in the second (R132). -/
def KeepsResolved (s t : State) : Prop :=
  (s.crcSel ≠ .unresolved → t.crcSel = s.crcSel) ∧ (s.adlSel ≠ .unresolved → t.adlSel = s.adlSel)

theorem KeepsResolved.of_eq {s t : State} (hcrc : t.crcSel = s.crcSel) (hadl : t.adlSel = s.adlSel) : KeepsResolved s t :=
  ⟨fun _ => hcrc, fun _ => hadl⟩

theorem exec_keepsResolved (i : Instr) (s : State) : ∃ t, exec i s = .next t ∧ KeepsResolved s t := by
  rcases exec_cases i s with ⟨-, heq⟩ | ⟨-, heq⟩ | ⟨-, heq⟩ | ⟨v, -, -, heq⟩ | ⟨bytes, -, -, heq⟩ | ⟨-, -, heq⟩ |
    ⟨v, -, -, heq⟩ | ⟨bytes, -, -, heq⟩ | ⟨-, -, heq⟩ <;> refine ⟨_, heq, ?_⟩
  · exact .of_eq rfl rfl
  · exact .of_eq rfl rfl
  · exact .of_eq rfl rfl
  · exact ⟨resolveSelection_of_resolved _ _, fun _ => rfl⟩
  · exact .of_eq rfl rfl
  · exact .of_eq rfl rfl
  · exact ⟨fun _ => rfl, resolveSelection_of_resolved _ _⟩
  · exact .of_eq rfl rfl
  · exact .of_eq rfl rfl

theorem acceptCommand_keepsResolved (w : CmdWord) (s : State) : ∃ t, acceptCommand w s = .next t ∧ KeepsResolved s t := by
  rcases acceptCommand_cases w s with ⟨i, -, heq⟩ | ⟨op, -, heq⟩ <;> rw [heq]
  · exact exec_keepsResolved i s
  · exact ⟨_, rfl, .of_eq rfl rfl⟩

theorem step_keepsResolved {s : State} (hreset : ∀ rest, s.input ≠ .reset :: rest) :
    ∃ t, step s = .next t ∧ KeepsResolved s t := by
  cases hin : s.input with
  | nil => exact ⟨s, step_of_no_input hin, .of_eq rfl rfl⟩
  | cons e rest =>
    rw [step_of_input hin]
    cases e with
    | command w => exact acceptCommand_keepsResolved w (s.setInput rest)
    | take =>
      rw [perform, State.takeResponse_eq]
      exact ⟨_, rfl, .of_eq rfl rfl⟩
    | reset => exact absurd hin (hreset rest)

/-- Settles O29: the first qualifying entry, the latches over a step, and `BEGIN` on a closed and on an open engine. -/
theorem selectionIsFirstQualifyingAndWriteOnce : Obligations.SelectionIsFirstQualifyingAndWriteOnce := by
  refine ⟨fun pre post k cap hpre hk => select_of_some (firstQualifying_append_cons hpre hk post),
    fun ks cap hks => select_of_none (firstQualifying_eq_none hks), ⟨rfl, rfl⟩, fun s t hstep hreset => ?_,
    fun v s hclosed hsel => ?_, fun v s hclosed hsel => ?_,
    fun v s hopen => ⟨_, exec_crcBegin_of_open v hopen, rfl, rfl⟩,
    fun v s hopen => ⟨_, exec_adlBegin_of_open v hopen, rfl, rfl⟩⟩
  · obtain ⟨t', ht', hkeeps⟩ := step_keepsResolved hreset
    cases hstep.symm.trans ht'
    exact hkeeps
  · exact ⟨_, exec_crcBegin_of_closed v hclosed, resolveSelection_of_unresolved _ _ hsel, rfl⟩
  · exact ⟨_, exec_adlBegin_of_closed v hclosed, resolveSelection_of_unresolved _ _ hsel, rfl⟩

end Sys2Proof.Machine
end

section
/-! The system commands (R130, R134). -/

namespace Sys2Proof.Machine

/-- Settles O1: opcode 0x00 has the row of `SYS.NOP`, whose meaning is the state it was given. -/
theorem sysNopChangesNothing : Obligations.SysNopChangesNothing :=
  ⟨decode_of_lookup rfl, fun _ => rfl⟩

/-- Settles O2: opcode 0x01 has the row of `SYS.RDSTAT`, whose meaning is the response alone. -/
theorem rdstatRespondsStatus : Obligations.RdstatRespondsStatus :=
  ⟨decode_of_lookup rfl, fun _ => rfl⟩

end Sys2Proof.Machine
end

section
/-! The two errors of the command interface (R140 to R148): what raising one writes, which words and commands raise, and that the
flags stay until the hardware reset. -/

namespace Sys2Proof.Machine

open Stated

theorem State.raiseError_illegalCommand (s : State) (op : Byte) : s.raiseError .illegalCommand op = afterIllegalCommand op s := by
  cases hill : s.errIll <;> cases hseq : s.errSeq <;>
    simp [State.raiseError, afterIllegalCommand, State.anyError, hill, hseq]

/-- Settles O12: the record each cause writes. -/
theorem errorEntryWritesFlagsOnly : Obligations.ErrorEntryWritesFlagsOnly :=
  ⟨fun op s => s.raiseError_illegalCommand op, fun op s => s.raiseError_sequenceError op⟩

/-- The four ranges of R57 over the natural numbers. -/
theorem reservedOpcode_iff (op : Byte) : reservedOpcode op = true ↔
    ((0x02 ≤ op.toNat ∧ op.toNat ≤ 0x0F) ∨ (0x1A ≤ op.toNat ∧ op.toNat ≤ 0x1F) ∨ (0x2A ≤ op.toNat ∧ op.toNat ≤ 0x2F) ∨
      0x30 ≤ op.toNat) := by
  simp [reservedOpcode, BitVec.le_def, or_assoc]

/-- The opcodes from 0x30 on are all reserved, those below are counted (R57). -/
theorem reservedOpcode_count : ((List.range 256).filter fun n => reservedOpcode (BitVec.ofNat 8 n)).length = 234 := by
  have hlow : ((List.range 48).filter fun n => reservedOpcode (BitVec.ofNat 8 n)).length = 26 := by decide
  have hhigh : ∀ n ∈ (List.range 208).map (48 + ·), reservedOpcode (BitVec.ofNat 8 n) = true := by
    simp only [List.forall_mem_map, List.mem_range, reservedOpcode_iff, BitVec.toNat_ofNat]
    omega
  rw [show 256 = 48 + 208 from rfl, List.range_add, List.filter_append, List.length_append, hlow,
    List.filter_eq_self.mpr hhigh, List.length_map, List.length_range]

theorem decode_of_reservedOpcode {w : CmdWord} (h : reservedOpcode (opField w) = true) : decode w = .reserved (opField w) := by
  have hmem : opField w ∉ opcodes := by
    rw [← reservedOpcode_eq_false_iff, h]
    nofun
  exact (decodingIsTotalByOpcode w).2 hmem

/-- A reserved word raises `IllegalCommand` at the command port, in any state (R57, R141). -/
theorem acceptCommand_of_reservedOpcode {w : CmdWord} (h : reservedOpcode (opField w) = true) (s : State) :
    acceptCommand w s = .next (afterIllegalCommand (opField w) s) := by
  rw [acceptCommand, decode_of_reservedOpcode h, ← State.raiseError_illegalCommand]

/-- Settles O13: the port's answer, in the given state and in the one with the word taken off the host's list, and the count. -/
theorem reservedOpcodeRaisesIllegalCommand : Obligations.ReservedOpcodeRaisesIllegalCommand := by
  refine ⟨fun w s hrange => ?_, reservedOpcode_count, reservedOpcode_iff⟩
  have hop : reservedOpcode (opField w) = true := (reservedOpcode_iff _).mpr hrange
  exact ⟨acceptCommand_of_reservedOpcode hop s,
    fun rest hin => (step_of_input hin).trans (acceptCommand_of_reservedOpcode hop (s.setInput rest))⟩

theorem outOfSequence_of_crcBeat {i : Instr} {bytes : List Byte} (h : crcBeatBytes i = some bytes) (s : State) :
    outOfSequence i s = !s.crcOpen := by
  cases i with
  | crcD1 | crcD2 | crcD3 | crcD4 | crcD5 | crcD6 | crcD7 | crcD8 => rfl
  | _ => cases h

theorem outOfSequence_of_adlBeat {i : Instr} {bytes : List Byte} (h : adlBeatBytes i = some bytes) (s : State) :
    outOfSequence i s = !s.adlOpen := by
  cases i with
  | adlD1 | adlD2 | adlD3 | adlD4 | adlD5 | adlD6 | adlD7 | adlD8 => rfl
  | _ => cases h

/-- The second state has the first one's error record: both flags and `first_err_op`. -/
def SameErrors (s t : State) : Prop :=
  t.errIll = s.errIll ∧ t.errSeq = s.errSeq ∧ t.firstErrOp = s.firstErrOp

/-- What a command does to the error record: where R142's table says, the error entry; elsewhere nothing. -/
theorem exec_errors (i : Instr) (s : State) :
    (outOfSequence i s = true ∧ exec i s = .next (s.raiseError .sequenceError (opcodeOf i))) ∨
      (outOfSequence i s = false ∧ ∃ t, exec i s = .next t ∧ SameErrors s t) := by
  rcases exec_cases i s with ⟨hraise, heq⟩ | ⟨rfl, heq⟩ | ⟨rfl, heq⟩ | ⟨v, rfl, hclosed, heq⟩ | ⟨bytes, hbytes, hopen, heq⟩ |
    ⟨rfl, hopen, heq⟩ | ⟨v, rfl, hclosed, heq⟩ | ⟨bytes, hbytes, hopen, heq⟩ | ⟨rfl, hopen, heq⟩
  · exact .inl ⟨by simpa [outOfSequence_eq] using hraise, heq⟩
  · exact .inr ⟨rfl, _, heq, rfl, rfl, rfl⟩
  · exact .inr ⟨rfl, _, heq, rfl, rfl, rfl⟩
  · exact .inr ⟨hclosed, _, heq, rfl, rfl, rfl⟩
  · exact .inr ⟨by rw [outOfSequence_of_crcBeat hbytes, hopen, Bool.not_true], _, heq, rfl, rfl, rfl⟩
  · exact .inr ⟨congrArg not hopen, _, heq, rfl, rfl, rfl⟩
  · exact .inr ⟨hclosed, _, heq, rfl, rfl, rfl⟩
  · exact .inr ⟨by rw [outOfSequence_of_adlBeat hbytes, hopen, Bool.not_true], _, heq, rfl, rfl, rfl⟩
  · exact .inr ⟨congrArg not hopen, _, heq, rfl, rfl, rfl⟩

/-- Settles O14: the two cases of `exec_errors` exclude each other. -/
theorem sequenceErrorExactlyWhenOutOfSequence : Obligations.SequenceErrorExactlyWhenOutOfSequence := by
  intro i s
  rcases exec_errors i s with ⟨hout, heq⟩ | ⟨hin, hsame⟩
  · rw [State.raiseError_sequenceError] at heq
    exact ⟨fun _ => heq, fun hin => (nomatch hout.symm.trans hin)⟩
  · exact ⟨fun hout => (nomatch hout.symm.trans hin), fun _ => hsame⟩

/-- Flags set in the first state are set in the second, and `first_err_op` is the same if one was (R146). -/
def ErrorsSticky (s t : State) : Prop :=
  (s.errIll = true → t.errIll = true) ∧ (s.errSeq = true → t.errSeq = true) ∧
    (s.errIll = true ∨ s.errSeq = true → t.firstErrOp = s.firstErrOp)

theorem SameErrors.sticky {s t : State} (h : SameErrors s t) : ErrorsSticky s t := by
  obtain ⟨hill, hseq, hfirst⟩ := h
  exact ⟨hill.trans, hseq.trans, fun _ => hfirst⟩

/-- A second and later error leaves `first_err_op` alone (R145, R146). -/
theorem State.raiseError_sticky (s : State) (cause : ErrorCause) (op : Byte) : ErrorsSticky s (s.raiseError cause op) := by
  refine ⟨fun hill => ?_, fun hseq => ?_, fun hany => if_pos ?_⟩
  · rw [State.raiseError_errIll, hill, Bool.true_or]
  · rw [State.raiseError_errSeq, hseq, Bool.true_or]
  · rwa [State.anyError, Bool.or_eq_true]

theorem exec_errorsSticky (i : Instr) (s : State) : ∃ t, exec i s = .next t ∧ ErrorsSticky s t := by
  rcases exec_errors i s with ⟨-, heq⟩ | ⟨-, t, heq, hsame⟩
  · exact ⟨_, heq, s.raiseError_sticky _ _⟩
  · exact ⟨t, heq, hsame.sticky⟩

theorem acceptCommand_errorsSticky (w : CmdWord) (s : State) : ∃ t, acceptCommand w s = .next t ∧ ErrorsSticky s t := by
  rcases acceptCommand_cases w s with ⟨i, -, heq⟩ | ⟨op, -, heq⟩ <;> rw [heq]
  · exact exec_errorsSticky i s
  · exact ⟨_, rfl, s.raiseError_sticky _ op⟩

/-- Settles O15: an idle step and a take keep the error record, a command is sticky on it, and only the reset clears it. -/
theorem errorFlagsStickyUntilReset : Obligations.ErrorFlagsStickyUntilReset := by
  intro s
  cases hin : s.input with
  | nil => exact ⟨s, step_of_no_input hin, fun _ => SameErrors.sticky ⟨rfl, rfl, rfl⟩, nofun⟩
  | cons e rest =>
    rw [step_of_input hin]
    cases e with
    | command w =>
      obtain ⟨t, ht, hsticky⟩ := acceptCommand_errorsSticky w (s.setInput rest)
      exact ⟨t, ht, fun _ => hsticky, nofun⟩
    | take =>
      rw [perform, State.takeResponse_eq]
      exact ⟨_, rfl, fun _ => SameErrors.sticky ⟨rfl, rfl, rfl⟩, nofun⟩
    | reset => exact ⟨_, rfl, fun hnone => absurd rfl (hnone rest), fun _ _ => ⟨rfl, rfl⟩⟩

end Sys2Proof.Machine
end
